-- ==== Sys2Proof/Word.lean ====
section
/-! DEFINITION. The byte of the climb line and the plain arithmetic of the manual's conventions (spec/00_scope.md, "Conventions"). -/

namespace Sys2Proof

/-- One byte of a post on the climb line (R155). -/
abbrev Byte := BitVec 8

/-- `x` limited to `lo` to `hi`, both ends included. -/
def clamp (lo hi x : Int) : Int := max lo (min hi x)

/-- A counter that stops at the end of its range ("Saturation" in the conventions). -/
def satAdd (limit n k : Nat) : Nat := min limit (n + k)

/-- The highest height of the node's frame, in tenths ("Units" in the conventions). -/
abbrev maxHeight : Int := 1000000

end Sys2Proof
end

