-- ==== Sys2Proof/Config.lean ====
section
/-! DEFINITION. What a node is configured with: the setting block of R192, and the free values that the manual leaves open. -/

namespace Sys2Proof

/-- The fields of the setting block, numbers 1 to 41 of the table of R192, each in the table's units. Values are kept as
integers because SETTING carries a signed value (R158) and a block that fails its load is kept as it was read (R194). -/
structure Settings where
  station : Int
  sector : Int
  ringSectors : Int
  lineRate : Int
  gateLimit : Int
  formHeight : Int
  probe1 : Int
  probe2 : Int
  probe3 : Int
  probe4 : Int
  receiverOffset : Int
  nominalPace : Int
  smax : Int
  smin : Int
  creepStroke : Int
  gain : Int
  lead : Int
  spreadAlarm : Int
  fillMin : Int
  cyclePeriod : Int
  pLift : Int
  pRest : Int
  pOver : Int
  skewLimit : Int
  valveOverrun : Int
  takeUp : Int
  liftTimeout : Int
  mRel : Int
  mStick : Int
  datum : Int
  fallback : Int
  gReq : Int
  gFull : Int
  lMin : Int
  pourLimit : Int
  gateTravel : Int
  lamp1 : Int
  lamp2 : Int
  lamp3 : Int
  calibrateNext : Int
  /-- field 41, absent until set -/
  fullStroke : Option Int
  deriving DecidableEq, Repr

/-- FREE VALUE. A field of the reply that the manual names but whose content it does not state in the case at hand
(log entry 11). `n` is the model's own count of free values used so far. -/
opaque Config.freeBits (w n : Nat) : BitVec w

/-- FREE VALUE. What field `field` of the stored block reads as after a write that a power loss cut short (R195: "the write
stops where it is"; log entry 10). `n` is the model's own count of free values used so far. -/
opaque Config.tornField (n field : Nat) : Int

/-- FREE VALUE. What field 41 of the stored block reads as after a write cut short (log entry 10). -/
opaque Config.tornFullStroke (n : Nat) : Option Int

/-- FREE VALUE. By which bits the check left by a write cut short differs from the check of the fields (log entry 10). -/
opaque Config.tornCheck (n : Nat) : BitVec 16

end Sys2Proof
end

