-- ==== Sys2Proof/Syntax.lean ====
section
/-! DEFINITION. The commands of the block: one constructor of `Instr` for each row of spec/opcode_table.json, and the types of
their operands. The table gives no operands; those below are what the row's rule reads. -/

namespace Sys2Proof

/-- The node modes (R134). -/
inductive Mode where
  | setup
  | climb
  | hold
  | safe
  deriving DecidableEq, Repr

/-- The chute gate states (R92). -/
inductive GateState where
  | closed
  | opening
  | opened
  | closing
  | jammed
  deriving DecidableEq, Repr

/-- The pour states (R92, R98). -/
inductive PourState where
  | dry
  | want
  | claiming
  | backoff
  | pouring
  | ending
  deriving DecidableEq, Repr

/-- The two kinds of ring halt (R143, R157). -/
inductive HaltKind where
  | climb
  | all
  deriving DecidableEq, Repr

/-- The reasons a HALT post carries (R157). -/
inductive HaltReason where
  | spread
  | strokeRepeat
  | overpressure
  | valve
  | sectorClash
  | estop
  deriving DecidableEq, Repr

/-- The flags byte of a LEVEL post (R157). -/
structure LevelFlags where
  heightValid : Bool
  bind : Bool
  settling : Bool
  channelFault : Bool
  laserDisagree : Bool
  heightLimit : Bool
  deriving DecidableEq, Repr

/-- The content of a LEVEL post (R157). -/
structure LevelPost where
  sector : Nat
  mode : Mode
  flags : LevelFlags
  height : Int
  strokeCount : Nat
  gate : GateState
  pour : PourState
  need : Int
  deriving DecidableEq, Repr

/-- The content of a CLAIM post (R157). -/
structure ClaimPost where
  need : Int
  number : Nat
  deriving DecidableEq, Repr

/-- The content of a GATE post (R157). -/
structure GatePost where
  state : GateState
  needAtOpen : Int
  yielded : Bool
  deriving DecidableEq, Repr

/-- The content of a HALT post (R157). -/
structure HaltPost where
  kind : HaltKind
  reason : HaltReason
  deriving DecidableEq, Repr

/-- A post's kind with its content. ORDER and REPLY posts are kept as their payload bytes, which LIF does not judge (R158). -/
inductive PostBody where
  | level (p : LevelPost)
  | claim (p : ClaimPost)
  | gate (p : GatePost)
  | halt (p : HaltPost)
  | order (payload : List Byte)
  | reply (payload : List Byte)
  deriving DecidableEq, Repr

/-- A clean post as the receive FIFO holds it (R163, R164). -/
structure RxPost where
  sender : Nat
  body : PostBody
  deriving DecidableEq, Repr

/-- Which of the key switch's three contacts are closed (R146, R205). -/
structure KeyContacts where
  run : Bool
  hold : Bool
  service : Bool
  deriving DecidableEq, Repr

/-- The two valve coils whose continuity is checked (R68). -/
inductive Coil where
  | lift
  | release
  deriving DecidableEq, Repr

/-- The inputs as a start finds them (R114, R131, R154, R200). -/
structure StartInputs where
  estopActive : Bool
  key : KeyContacts
  gateOpenLimit : Bool
  gateClosedLimit : Bool
  beamPresent : Bool
  deriving DecidableEq, Repr

/-- What happens at the converter, at the receiver and at the beam-present input while steps 1 to 3 of a start run (R200:
MSQ converts and LIF receives, their announcements and reports held back). -/
inductive StartEvent where
  | conversion (raw : BitVec 12)
  | beamPresent (on : Bool)
  | startBit (quiet : Nat)
  | post (bytes : List Byte)
  | framingError (quiet : Nat)
  deriving DecidableEq, Repr

/-- The commands. A first operand `sender` is the station whose ORDER post (or LEVEL, CLAIM, GATE or HALT post) is taken;
`target` is the ORDER post's target station: the own number, 63 for the whole ring, or 0 for an unset node (R158). -/
inductive Instr where
  /-- CLIMB order (R147, R148, R153) -/
  | climb (sender target : Nat)
  /-- HOLD order (R149, R153) -/
  | hold (sender target : Nat)
  /-- SETUP order (R150) -/
  | setup (sender target : Nat)
  /-- CLEAR order (R151, R152) -/
  | clear (sender target : Nat)
  /-- TRIM UP order (R61) -/
  | trimUp (sender target : Nat)
  /-- TRIM DOWN order (R61) -/
  | trimDown (sender target : Nat)
  /-- TRIM SET order with its signed byte (R61, R179) -/
  | trimSet (sender target : Nat) (value : BitVec 8)
  /-- HEIGHT SET order with its 3-byte height (R84, R179) -/
  | heightSet (sender target : Nat) (value : BitVec 24)
  /-- HEIGHT ADOPT order (R85) -/
  | heightAdopt (sender target : Nat)
  /-- PLANE SET order with its 3-byte height (R87) -/
  | planeSet (sender target : Nat) (value : BitVec 24)
  /-- PLANE WITHDRAW order (R87) -/
  | planeWithdraw (sender target : Nat)
  /-- WINDOW order: collection code, first and last position (R181) -/
  | window (sender target : Nat) (collection first last : Byte)
  /-- READ order with its part (R182, R183) -/
  | read (sender target : Nat) (part : Byte)
  /-- AMEND-BEGIN order (R184) -/
  | amendBegin (sender target : Nat)
  /-- AMEND order with its 3-byte maturity (R185) -/
  | amend (sender target : Nat) (maturity : BitVec 24)
  /-- SETTING order: field number and signed 4-byte value (R186) -/
  | setting (sender target : Nat) (field : Byte) (value : BitVec 32)
  /-- DEFAULTS order (R186) -/
  | defaults (sender target : Nat)
  /-- STORE order (R187) -/
  | store (sender target : Nat)
  /-- CALIBRATE order (R189) -/
  | calibrate (sender target : Nat)
  /-- RESTART order (R188) -/
  | restart (sender target : Nat)
  /-- STATUS order with its page (R190) -/
  | status (sender target : Nat) (page : Byte)
  /-- an ORDER whose code, length or variant is not one of R158 (R177): its code and the bytes after it -/
  | orderInvalid (sender target : Nat) (code : Byte) (args : List Byte)
  /-- any ORDER taken while the store-waiting mark is set (R177) -/
  | orderWhileStoring (sender target : Nat) (code : Byte) (args : List Byte)
  /-- a post arrives complete: its bytes from the lead mark to the last check byte (R161 to R163) -/
  | postReceived (bytes : List Byte)
  /-- the receiver finds a framing error, after `quiet` bit times of recessive line: none where a byte shows it, more than 3 where a
  gap between two bytes does (R155, R161) -/
  | framingError (quiet : Nat := 0)
  /-- PVW takes a LEVEL post (R29 to R31) -/
  | levelTaken (sender : Nat) (post : LevelPost)
  /-- PVW takes a CLAIM post (R32) -/
  | claimTaken (sender : Nat) (post : ClaimPost)
  /-- PVW takes a GATE post (R33) -/
  | gateTaken (sender : Nat) (post : GatePost)
  /-- MCT takes a HALT post (R144) -/
  | haltTaken (sender : Nat) (post : HaltPost)
  /-- 1,000 ms have passed since the claim of the entry of `station` was heard (R34) -/
  | claimLapse (station : Nat)
  /-- the age of the entry of `station` reaches 2,000 ms (R35, R36) -/
  | peerStale (station : Nat)
  /-- the age of the entry of `station` reaches 30,000 ms (R35) -/
  | peerDrop (station : Nat)
  /-- the quiet time has reached `quiet` bit times (R165) -/
  | access (quiet : Nat)
  /-- a bit of the own post reads back differently (R169) -/
  | garble
  /-- the own post has read back clean to its last stop bit (R170) -/
  | postSent
  /-- the rejoin timer has reached 4,000 ms (R172) -/
  | muteLeave
  /-- the periodic LEVEL timer expires (R167) -/
  | levelTimer
  /-- the 2,000 ms of the join listen end (R200) -/
  | joinListenEnd
  /-- the tick timer reaches 60 s (R12) -/
  | tick
  /-- one second of the POURING record's pour-duration count (R4) -/
  | pourDurationCount
  /-- the cycle timer reaches the period (R47, R48) -/
  | cycleExpiry
  /-- a 10 ms period of the lift valve's PWM begins (R66, R69) -/
  | rampPeriod
  /-- 3 s have passed in PRESSURIZE (R69) -/
  | pressurizeTimeout
  /-- the lift timeout has passed in LIFT (R70) -/
  | liftTimeout
  /-- the top-limit input has turned on and stayed on for 5 ms (R71) -/
  | topLimitCapture
  /-- 200 ms have passed in TOPDWELL (R72) -/
  | topTrigger
  /-- 250 ms have passed in TOPDWELL (R72, R73) -/
  | topdwellEnd
  /-- 5 s have passed in RELEASE (R73) -/
  | releaseTimeout
  /-- a continuity check of a coil completes and finds it open or good (R68) -/
  | coilCheck (coil : Coil) (isOpen : Bool)
  /-- the conversion in flight completes with this raw reading (R117 to R124) -/
  | conversionComplete (raw : BitVec 12)
  /-- the beam-present input changes (R121) -/
  | beamPresentChange (on : Bool)
  /-- the gate open-limit input is found on, or turns off (R94) -/
  | gateOpenLimit (on : Bool)
  /-- the gate closed-limit input is found on, or turns off (R95) -/
  | gateClosedLimit (on : Bool)
  /-- the gate travel timer reaches its limit (R94 to R96) -/
  | gateTravelTimeout
  /-- the settle timer reaches 1,000 ms (R104, R105) -/
  | settleDecision
  /-- the backoff timer reaches its length (R106) -/
  | backoffEnd
  /-- one second of the pour timer (R108) -/
  | pourTimerSecond
  /-- the qualified E-stop input changes (R145) -/
  | estopChange (active : Bool)
  /-- a reading of the key contacts has been steady for 50 ms (R146) -/
  | keyChange (contacts : KeyContacts)
  /-- the write of the stored block in progress is done (R195) -/
  | storeWriteDone
  /-- power-fail detect turns active; `holdUp`: the supply's hold-up lasts until the save is complete (R198) -/
  | powerFail (holdUp : Bool)
  /-- a whole minute stopped (R199) -/
  | outageMinute
  /-- the retention supply is exhausted (R199) -/
  | retentionLost
  /-- steps 1 to 3 of a start: the inputs it finds and what happens meanwhile at the converter and the receiver (R200) -/
  | start (inputs : StartInputs) (heard : List StartEvent)
  /-- step 4 of a start: SRS decides whether to calibrate (R196) -/
  | startCalibrationStep
  /-- LDR's blink timer ends a half of the slow or the fast phase (R203) -/
  | blinkPhase (fast : Bool)
  /-- a start bit from another station, after `quiet` bit times of recessive line (R155, R161) -/
  | startBit (quiet : Nat)
  deriving DecidableEq, Repr

end Sys2Proof
end

