-- ==== Sys2Proof/Machine/Blocks.lean ====
section
/-! DEFINITION. The state of each of the node's eleven blocks, as the chapter of the owning block lists it. -/

namespace Sys2Proof.Machine

/-! ### LCO, the layer column (chapter 1) -/

/-- A layer record's state (R2). -/
inductive LayerState where
  | pouring
  | placed
  | exiting
  deriving DecidableEq, Repr

/-- The seven flags of a layer record (R2). -/
structure LayerFlags where
  merged : Bool
  synthetic : Bool
  yieldEnded : Bool
  longPour : Bool
  fallbackUsed : Bool
  amended : Bool
  outageCredited : Bool
  deriving DecidableEq, Repr

/-- A layer record (R2). -/
structure Layer where
  id : Nat
  state : LayerState
  bottom : Int
  top : Int
  maturity : Nat
  pourStart : Nat
  /-- absent while POURING -/
  duration : Option Nat
  flags : LayerFlags
  deriving DecidableEq, Repr

/-- The reasons FCT ends a pour with (R7, R109). -/
inductive EndReason where
  | fillReached
  | timeLimit
  | blocked
  | yielded
  deriving DecidableEq, Repr

/-- LCO's state (chapter 1). -/
structure Lco where
  /-- the layer records, oldest first (R1) -/
  column : List Layer
  /-- the column-known mark (R1) -/
  known : Bool
  /-- the run clock, minutes (R12) -/
  runClock : Nat
  /-- the tick timer, in milliseconds of its 60 s (R12) -/
  tickMs : Nat
  /-- the next-id counter (R3) -/
  nextId : Nat
  /-- the release total (R9) -/
  releaseTotal : Nat
  /-- the depth reference of the POURING record, present when it was appended by R4 (R4, R7, R11) -/
  depthRef : Option Int
  /-- the pour-duration count, seconds (R4) -/
  pourSeconds : Nat
  deriving DecidableEq, Repr

/-! ### PVW, the peer view (chapter 2) -/

/-- A peer entry's current claim (R28); `ageMs` is the time since it was heard. -/
structure PeerClaim where
  need : Int
  number : Nat
  ageMs : Nat
  deriving DecidableEq, Repr

/-- A peer entry (R28). Its live and clash fields are computed from the table (R35, R38). -/
structure Peer where
  station : Nat
  sector : Nat
  height : Int
  heightValid : Bool
  mode : Mode
  strokeCount : Nat
  gate : GateState
  pour : PourState
  need : Int
  needAtOpen : Option Int
  claim : Option PeerClaim
  ageMs : Nat
  deriving DecidableEq, Repr

/-- PVW's state (R27, R30, R39, R40). -/
structure Pvw where
  /-- the peer entries, kept in the sector order of R37 -/
  peers : List Peer
  tableFull : Bool
  /-- the sector-clash condition (R39) -/
  sectorClash : Bool
  /-- the identity-clash condition (R40) -/
  identityClash : Bool
  deriving DecidableEq, Repr

/-! ### CPL, the climb planner (chapter 3) -/

/-- The forms of the computation (R50). -/
inductive Form where
  | noForm
  | level
  | creep
  | hold
  | reference
  deriving DecidableEq, Repr

/-- The reference basis (R51). -/
inductive Basis where
  | noBasis
  | twoNeighbours
  | oneNeighbour
  | ring
  | self
  deriving DecidableEq, Repr

/-- The last-computation record (R60). -/
structure CplRecord where
  minute : Option Nat
  skipped : Bool
  form : Form
  basis : Basis
  href : Option Int
  offset : Option Int
  spreadExceeded : Option Bool
  error : Option Int
  slvl : Option Int
  cmax : Option Int
  cfill : Option Int
  crel : Option Int
  clead : Option Int
  scap : Option Int
  sfloor : Option Int
  allowance : Option Int
  bind : Bool
  deriving DecidableEq, Repr

/-- CPL's state (R46). -/
structure Cpl where
  trim : Int
  /-- the cycle timer in milliseconds; absent while it is stopped (R47) -/
  cycleMs : Option Nat
  record : CplRecord
  deriving DecidableEq, Repr

/-! ### SSQ, the stroke sequencer (chapter 4) -/

/-- The stroke phases (R64). -/
inductive Phase where
  | idle
  | pressurize
  | lift
  | topdwell
  | release
  | settle
  deriving DecidableEq, Repr

/-- The kinds of stroke (R64). -/
inductive StrokeKind where
  | level
  | creep
  | calibration
  deriving DecidableEq, Repr

/-- The stroke faults (R76). -/
inductive StrokeFault where
  | noPressure
  | stall
  | skew
  | transducer
  | noReturn
  deriving DecidableEq, Repr

/-- The rise ends (R64). -/
inductive RiseEnd where
  | target
  | full
  | cut
  deriving DecidableEq, Repr

/-- The end causes of a history record (R86). -/
inductive EndCause where
  | target
  | full
  | skew
  | cut
  | stall
  | noPressure
  | noReturn
  | transducer
  | powerCut
  | calibration
  deriving DecidableEq, Repr

/-- One element of a sample set (R123). -/
structure SampleElem where
  value : Option Int
  good : Bool
  deriving DecidableEq, Repr

/-- A sample set with its substituted mark (R64, R123, R126). -/
structure Sample where
  j1 : SampleElem
  j2 : SampleElem
  j3 : SampleElem
  j4 : SampleElem
  pres : SampleElem
  substituted : Bool
  deriving DecidableEq, Repr

/-- The stroke in flight (R64). -/
structure Stroke where
  kind : StrokeKind
  /-- S; absent for CALIBRATION -/
  allowance : Option Int
  startSample : Option Sample
  topSample : Option Sample
  endSample : Option Sample
  /-- the LIFT entry time, on the node's millisecond time -/
  liftEntry : Option Nat
  liftDuration : Option Nat
  releaseEntry : Option Nat
  releaseDuration : Option Nat
  riseEnd : Option RiseEnd
  /-- in the order they arose (R76) -/
  faults : List StrokeFault
  /-- the laser correction applied at SETTLE -/
  laser : Option Int
  /-- the TOP trigger of this stroke has been fired (R72) -/
  topFired : Bool
  deriving DecidableEq, Repr

/-- A record of the stroke history (R86). -/
structure HistoryRec where
  number : Nat
  allowance : Option Int
  climbed : Int
  liftMs : Nat
  releaseMs : Nat
  cause : EndCause
  creep : Bool
  substituted : Bool
  laser : Option Int
  deriving DecidableEq, Repr

/-- SSQ's state (R64), with the valve outputs it drives (R66, R67), the last coil checks (R68) and the overpressure
condition (R79). -/
structure Ssq where
  phase : Phase
  stroke : Option Stroke
  height : Int
  heightValid : Bool
  heightLimit : Bool
  laserDisagree : Bool
  plane : Option Int
  strokeCount : Nat
  /-- newest first -/
  history : List HistoryRec
  chatter : Nat
  liftEnable : Bool
  /-- the duty, percent, last written to the lift driver -/
  dutyWritten : Nat
  /-- the duty, percent, in force in the current 10 ms period -/
  dutyInForce : Nat
  releaseOn : Bool
  liftCoilOpen : Bool
  releaseCoilOpen : Bool
  overpressure : Bool
  deriving DecidableEq, Repr

/-! ### MSQ, the measurement sequencer (chapter 6) -/

/-- The eleven channels in scan order (R115, R116). -/
inductive Channel where
  | j1
  | j2
  | j3
  | j4
  | pres
  | fill
  | t1
  | t2
  | t3
  | t4
  | beam
  deriving DecidableEq, Repr

/-- A channel's state (R115). -/
inductive ChanState where
  | notValid
  | good
  | faulted
  | absent
  deriving DecidableEq, Repr

/-- An entry of the result table (R115). -/
structure ChanEntry where
  value : Option Int
  state : ChanState
  fresh : Bool
  outCount : Nat
  goodCount : Nat
  deriving DecidableEq, Repr

/-- The result table (R115). -/
structure ChanTable where
  j1 : ChanEntry
  j2 : ChanEntry
  j3 : ChanEntry
  j4 : ChanEntry
  pres : ChanEntry
  fill : ChanEntry
  t1 : ChanEntry
  t2 : ChanEntry
  t3 : ChanEntry
  t4 : ChanEntry
  beam : ChanEntry
  deriving DecidableEq, Repr

/-- The tags of the injected triggers (R122). -/
inductive Tag where
  | start
  | top
  | finish
  deriving DecidableEq, Repr

/-- The chain in flight: its tag and the elements gathered so far, J1 first (R122, R123). -/
structure Chain where
  tag : Tag
  done : List SampleElem
  deriving DecidableEq, Repr

/-- MSQ's state (chapter 6). -/
structure Msq where
  table : ChanTable
  /-- the channel of the normal conversion in flight, or the restored channel while a chain is in flight (R116, R122) -/
  scan : Channel
  /-- the normal scan has completed its first full pass since the start (R131, R196, R200) -/
  passDone : Bool
  chain : Option Chain
  pendingTrigger : Option Tag
  /-- the trigger-overrun mark (R128) -/
  overrun : Bool
  /-- the sense condition (R129) -/
  sense : Bool
  deriving DecidableEq, Repr

/-! ### FCT, the feed controller (chapter 5) -/

/-- The motor drive FCT asks for (R93). -/
inductive Motor where
  | off
  | openDrive
  | closeDrive
  deriving DecidableEq, Repr

/-- The own claim (R92). -/
structure OwnClaim where
  need : Int
  number : Nat
  sent : Bool
  deriving DecidableEq, Repr

/-- FCT's state (R92). -/
structure Fct where
  gate : GateState
  motor : Motor
  /-- the gate travel timer, ms -/
  travelMs : Nat
  pour : PourState
  claimNumber : Nat
  ownClaim : Option OwnClaim
  /-- the settle timer, ms -/
  settleMs : Nat
  /-- the backoff timer, ms -/
  backoffMs : Nat
  /-- the length of the backoff in progress, ms -/
  backoffLength : Nat
  /-- the pour timer, s -/
  pourSeconds : Nat
  needAtOpen : Option Int
  yieldMark : Bool
  pendingBackoff : Option Nat
  /-- whether the pour block was last reported begun (R99, R100) -/
  blocked : Bool
  deriving DecidableEq, Repr

/-! ### MCT, the mode controller (chapter 7) -/

/-- The base (R134). -/
inductive Base where
  | setup
  | running
  deriving DecidableEq, Repr

/-- The hold causes (R134, R136). -/
inductive HoldCause where
  | operator
  | haltClimb
  | haltAll
  | estop
  | key
  | mute
  | sense
  deriving DecidableEq, Repr

/-- The SAFE causes (R134, R137). -/
inductive SafeCause where
  | spread
  | strokeRepeat
  | overpressure
  | valve
  | sectorClash
  | identityClash
  | restored
  deriving DecidableEq, Repr

/-- A set of hold causes: which are members. -/
structure HoldSet where
  operator : Bool
  haltClimb : Bool
  haltAll : Bool
  estop : Bool
  key : Bool
  mute : Bool
  sense : Bool
  deriving DecidableEq, Repr

/-- A set of SAFE causes: which are members. -/
structure SafeSet where
  spread : Bool
  strokeRepeat : Bool
  overpressure : Bool
  valve : Bool
  sectorClash : Bool
  identityClash : Bool
  restored : Bool
  deriving DecidableEq, Repr

/-- The key positions (R146). -/
inductive KeyPos where
  | run
  | hold
  | service
  deriving DecidableEq, Repr

/-- The last halt heard (R134, R144). -/
structure LastHalt where
  sender : Nat
  post : HaltPost
  minute : Nat
  deriving DecidableEq, Repr

/-- MCT's state (R134). -/
structure Mct where
  base : Base
  hold : HoldSet
  safe : SafeSet
  restored : Option SafeSet
  /-- the stroke-fault window, newest first (R77) -/
  window : List Nat
  queuedHalt : Option HaltPost
  lastHalt : Option LastHalt
  settling : Bool
  key : KeyPos
  estopActive : Bool
  deriving DecidableEq, Repr

/-! ### LIF, the line interface (chapter 8) -/

/-- A filled slot of the transmit queue: the post waiting and its age, as the number of the queuing that filled the slot (R166). -/
structure Slot (α : Type) where
  post : α
  stamp : Nat
  deriving DecidableEq, Repr

/-- The five slots' names (R166). -/
inductive TxKind where
  | halt
  | claim
  | gate
  | level
  | reply
  deriving DecidableEq, Repr

/-- The post in the transmitter: its content, the age it had in its slot, whether its withdrawal has been answered "too late"
(R168), and its bytes on the line (R156). -/
structure Transmission where
  body : PostBody
  stamp : Nat
  tooLate : Bool
  bytes : List Byte
  deriving DecidableEq, Repr

/-- What the receiver is doing (R161): ready for a post to begin, assembling one, or taking nothing after a framing error
until the quiet time again exceeds 3 bit times. -/
inductive RxState where
  | ready
  | assembling
  | errored
  deriving DecidableEq, Repr

/-- LIF's state (chapter 8). -/
structure Lif where
  haltSlot : Option (Slot HaltPost)
  claimSlot : Option (Slot ClaimPost)
  gateSlot : Option (Slot GatePost)
  /-- the LEVEL slot holds no content, only that a LEVEL post is wanted, and its age (R167) -/
  levelSlot : Option (Slot Unit)
  replySlot : Option (Slot (List Byte))
  /-- the number the next queuing into an empty slot takes as its age (R166) -/
  nextStamp : Nat
  transmitter : Option Transmission
  /-- access to the line has begun, at the end of the join listen (R174) -/
  access : Bool
  rx : RxState
  /-- the receive FIFO, head first (R164) -/
  fifo : List RxPost
  lastSender : Nat
  /-- the quiet time, in microseconds of recessive line (R155) -/
  quietUs : Nat
  /-- what is left of the byte the last start bit opened, in microseconds (R155) -/
  byteLeftUs : Nat
  bucket : Nat
  muted : Bool
  rejoinMs : Nat
  rejoinCount : Nat
  silent : Bool
  /-- the periodic LEVEL timer, ms; absent while it is stopped (R167, R174) -/
  levelMs : Option Nat
  framingErrors : Nat
  checkErrors : Nat
  overruns : Nat
  garbles : Nat
  deriving DecidableEq, Repr

/-! ### ORS, the order responder (chapter 9) -/

/-- The three collections a panel can read (R181). -/
inductive Collection where
  | layers
  | peers
  | strokes
  deriving DecidableEq, Repr

/-- A read cursor that is set (R176). -/
structure Cursor where
  collection : Collection
  first : Nat
  last : Nat
  position : Nat
  deriving DecidableEq, Repr

/-- ORS's state (R176). -/
structure Ors where
  cursor : Option Cursor
  amend : Bool
  /-- the store-waiting mark, with the station whose STORE waits for its reply (R187) -/
  storeWaiting : Option Nat
  restartWaiting : Bool
  deriving DecidableEq, Repr

/-! ### SRS, the settings and retention store (chapter 10) -/

/-- The stored block: its fields and its 16-bit check (R191, R195). -/
structure StoredBlock where
  fields : Settings
  check : BitVec 16
  deriving DecidableEq, Repr

/-- The load result (R191). -/
inductive LoadResult where
  | good
  | default
  deriving DecidableEq, Repr

/-- A write of the stored block: its values, and whether ORS asked for it at a STORE (R195). -/
structure BlockWrite where
  block : Settings
  forStore : Bool
  deriving DecidableEq, Repr

/-- The retention area (R198), with its RESTART marking (R201). -/
structure Retained where
  height : Int
  heightValid : Bool
  plane : Option Int
  strokeCount : Nat
  history : List HistoryRec
  whileStroking : Bool
  extension : Int
  column : List Layer
  runClock : Nat
  trim : Int
  base : Base
  wasSafe : Bool
  safe : SafeSet
  window : List Nat
  atRestart : Bool
  deriving DecidableEq, Repr

/-- Whether the node runs (R198, R200, R201): stopped; a commanded restart has begun and its steps 1 to 3 are not yet
complete; or up, from the end of step 3 of a start on. -/
inductive Life where
  | stopped
  | restarting
  | up
  deriving DecidableEq, Repr

/-- Where the start sequence stands once its step 3 is complete (R200): before the decision of step 4, waiting for the
calibration stroke, in the join listen, or running. -/
inductive StartStep where
  | deciding
  | calibrating
  | joinListen
  | running
  deriving DecidableEq, Repr

/-- SRS's state (chapter 10). -/
structure Srs where
  /-- the stored block; absent while a write is in progress, when it is neither the old block nor the new one (R195; log entry 10) -/
  stored : Option StoredBlock
  active : Settings
  staged : Settings
  loadResult : LoadResult
  /-- whether the check agreed at the load step (R191) -/
  checkAgreed : Bool
  defaultsTaken : Bool
  calibrationPending : Bool
  /-- the write of the stored block in progress (R195) -/
  write : Option BlockWrite
  /-- writes asked for while another is in progress, first asked first (R195) -/
  writesWaiting : List BlockWrite
  area : Option Retained
  areaValid : Bool
  /-- the outage minute counter (R199) -/
  outage : Nat
  life : Life
  step : StartStep
  /-- the join listen's time so far, ms (R200) -/
  joinMs : Nat
  /-- the reply to the waiting RESTART has been sent or discarded (R188) -/
  restartReady : Bool
  deriving DecidableEq, Repr

/-! ### LDR, the lamp driver (chapter 11) -/

/-- LDR's state: whether the outputs are driven (R204) and the blink timer (R203). -/
structure Ldr where
  lit : Bool
  slowOn : Bool
  fastOn : Bool
  slowMs : Nat
  fastMs : Nat
  deriving DecidableEq, Repr

/-- The field inputs that no block keeps a qualified copy of (R205): the gate limits and the beam-present input. -/
structure Pins where
  gateOpenLimit : Bool
  gateClosedLimit : Bool
  beamPresent : Bool
  deriving DecidableEq, Repr

end Sys2Proof.Machine
end

