-- ==== Sys2Proof/Machine/Operands.lean ====
section
/-! DEFINITION. The operand layouts of the climb line: bytes, the check, the payloads of the posts (R156, R157), the arguments of
the orders (R158) and the codes of the replies (R159, R160). -/

namespace Sys2Proof.Machine

/-! ### Bytes -/

/-- The low byte of a number. -/
def byteOf (n : Int) : Byte := BitVec.ofInt 8 n

/-- `n` in `k` bytes, high byte first, signed values in two's complement (R156). -/
def beBytes (k : Nat) (n : Int) : List Byte :=
  (List.range k).reverse.map fun i => byteOf (n / (256 : Int) ^ i)

/-- The value of bytes sent high byte first. -/
def beValue (bytes : List Byte) : Nat := bytes.foldl (fun acc b => acc * 256 + b.toNat) 0

/-! ### The check (R156) -/

/-- One bit taken into the check register: the bit is added to the coefficient of x^15, the register is shifted toward x^15,
and x^15 + x^2 + 1 is added if the coefficient that left was 1. -/
def crcBit (r : BitVec 16) (b : Bool) : BitVec 16 :=
  if r.msb != b then (r <<< 1) ^^^ 0x8005#16 else r <<< 1

/-- The bits of a byte, least significant first. -/
def bitsOf (b : Byte) : List Bool := (List.range 8).map b.getLsbD

/-- One byte taken into the check register, least significant bit first. -/
def crcByte (r : BitVec 16) (b : Byte) : BitVec 16 := (bitsOf b).foldl crcBit r

/-- The check register after these bytes, from all ones. -/
def crcOf (bytes : List Byte) : BitVec 16 := bytes.foldl crcByte 0xFFFF#16

/-- The byte whose least significant bit is the first bit of the list. -/
def byteOfBits (bits : List Bool) : Byte := bits.foldr (fun b acc => (acc <<< 1) ||| (if b then 1#8 else 0#8)) 0#8

/-- The two check bytes of a register's content: the coefficients of x^15 to x^8, then those of x^7 to x^0, each byte with its
highest-degree coefficient in its least significant bit. -/
def checkBytes (r : BitVec 16) : List Byte :=
  [byteOfBits ((List.range 8).map fun i => r.getLsbD (15 - i)), byteOfBits ((List.range 8).map fun i => r.getLsbD (7 - i))]

/-! ### Codes (R157, R160) -/

/-- The mode codes of a LEVEL post. -/
def modeCode : Mode → Nat
  | .setup => 0
  | .climb => 1
  | .hold => 2
  | .safe => 3

/-- The mode of a code. -/
def modeOfCode : Nat → Option Mode
  | 0 => some .setup
  | 1 => some .climb
  | 2 => some .hold
  | 3 => some .safe
  | _ => none

/-- The gate state codes. -/
def gateCode : GateState → Nat
  | .closed => 0
  | .opening => 1
  | .opened => 2
  | .closing => 3
  | .jammed => 4

/-- The gate state of a code. -/
def gateOfCode : Nat → Option GateState
  | 0 => some .closed
  | 1 => some .opening
  | 2 => some .opened
  | 3 => some .closing
  | 4 => some .jammed
  | _ => none

/-- The pour state codes. -/
def pourCode : PourState → Nat
  | .dry => 0
  | .want => 1
  | .claiming => 2
  | .backoff => 3
  | .pouring => 4
  | .ending => 5

/-- The pour state of a code. -/
def pourOfCode : Nat → Option PourState
  | 0 => some .dry
  | 1 => some .want
  | 2 => some .claiming
  | 3 => some .backoff
  | 4 => some .pouring
  | 5 => some .ending
  | _ => none

/-- The gate and pour byte: gate state × 16 + pour state. -/
def gatePourCode (g : GateState) (p : PourState) : Nat := gateCode g * 16 + pourCode p

/-- The HALT kind codes. -/
def haltKindCode : HaltKind → Nat
  | .climb => 1
  | .all => 2

/-- The HALT reason codes. -/
def haltReasonCode : HaltReason → Nat
  | .spread => 1
  | .strokeRepeat => 2
  | .overpressure => 3
  | .valve => 4
  | .sectorClash => 5
  | .estop => 6

/-- The HALT kind of a code. -/
def haltKindOfCode : Nat → Option HaltKind
  | 1 => some .climb
  | 2 => some .all
  | _ => none

/-- The HALT reason of a code. -/
def haltReasonOfCode : Nat → Option HaltReason
  | 1 => some .spread
  | 2 => some .strokeRepeat
  | 3 => some .overpressure
  | 4 => some .valve
  | 5 => some .sectorClash
  | 6 => some .estop
  | _ => none

/-- The sum of the given weights of the members present. -/
def weights (members : List (Bool × Nat)) : Nat := (members.map fun m => if m.1 then m.2 else 0).sum

/-- The flags byte of a LEVEL post (R157). -/
def levelFlagsCode (f : LevelFlags) : Nat :=
  weights [(f.heightValid, 1), (f.bind, 2), (f.settling, 4), (f.channelFault, 8), (f.laserDisagree, 16), (f.heightLimit, 32)]

/-- The flags of a LEVEL post's flags byte. -/
def levelFlagsOf (b : Byte) : LevelFlags :=
  { heightValid := b.getLsbD 0, bind := b.getLsbD 1, settling := b.getLsbD 2, channelFault := b.getLsbD 3,
    laserDisagree := b.getLsbD 4, heightLimit := b.getLsbD 5 }

/-! ### Payloads of the posts (R157) -/

/-- The payload of a LEVEL post. -/
def levelPayload (p : LevelPost) : List Byte :=
  [byteOf p.sector, byteOf (modeCode p.mode), byteOf (levelFlagsCode p.flags)] ++ beBytes 3 p.height ++
    [byteOf p.strokeCount, byteOf (gatePourCode p.gate p.pour)] ++ beBytes 2 p.need

/-- The LEVEL post of a payload; none if its length or a field is outside R156 and R157. -/
def levelOfPayload (payload : List Byte) : Option LevelPost :=
  match payload with
  | [sec, mode, flags, h2, h1, h0, count, gp, n1, n0] =>
    match modeOfCode mode.toNat, gateOfCode (gp.toNat / 16), pourOfCode (gp.toNat % 16) with
    | some m, some g, some p =>
      if sec.toNat ≤ 47 ∧ flags.toNat ≤ 63 ∧ beValue [h2, h1, h0] ≤ 1000000 ∧ beValue [n1, n0] ≤ 15000 then
        some { sector := sec.toNat, mode := m, flags := levelFlagsOf flags, height := beValue [h2, h1, h0],
               strokeCount := count.toNat, gate := g, pour := p, need := beValue [n1, n0] }
      else none
    | _, _, _ => none
  | _ => none

/-- The payload of a CLAIM post. -/
def claimPayload (p : ClaimPost) : List Byte := beBytes 2 p.need ++ [byteOf p.number]

/-- The CLAIM post of a payload. -/
def claimOfPayload (payload : List Byte) : Option ClaimPost :=
  match payload with
  | [n1, n0, number] =>
    if beValue [n1, n0] ≤ 15000 then some { need := beValue [n1, n0], number := number.toNat } else none
  | _ => none

/-- The payload of a GATE post. -/
def gatePayload (p : GatePost) : List Byte :=
  [byteOf (gateCode p.state)] ++ beBytes 2 p.needAtOpen ++ [byteOf (if p.yielded then 1 else 0)]

/-- The GATE post of a payload. -/
def gateOfPayload (payload : List Byte) : Option GatePost :=
  match payload with
  | [g, n1, n0, y] =>
    match gateOfCode g.toNat with
    | some st =>
      if beValue [n1, n0] ≤ 15000 ∧ y.toNat ≤ 1 then
        some { state := st, needAtOpen := beValue [n1, n0], yielded := y.getLsbD 0 }
      else none
    | none => none
  | _ => none

/-- The payload of a HALT post. -/
def haltPayload (p : HaltPost) : List Byte := [byteOf (haltKindCode p.kind), byteOf (haltReasonCode p.reason)]

/-- The HALT post of a payload. -/
def haltOfPayload (payload : List Byte) : Option HaltPost :=
  match payload with
  | [k, r] =>
    match haltKindOfCode k.toNat, haltReasonOfCode r.toNat with
    | some kind, some reason => some { kind := kind, reason := reason }
    | _, _ => none
  | _ => none

/-- The kind byte of a post (R156). -/
def kindCode : PostBody → Nat
  | .level _ => 1
  | .claim _ => 2
  | .gate _ => 3
  | .halt _ => 4
  | .order _ => 5
  | .reply _ => 6

/-- The payload of a post. -/
def payloadOf : PostBody → List Byte
  | .level p => levelPayload p
  | .claim p => claimPayload p
  | .gate p => gatePayload p
  | .halt p => haltPayload p
  | .order p => p
  | .reply p => p

/-- The content of a post of this kind byte and payload; none if the kind is not one of the six, the length is outside the
range for the kind, or a field of a LEVEL, CLAIM, GATE or HALT post holds a value outside R157 (R162, step 2). -/
def bodyOf (kind : Nat) (payload : List Byte) : Option PostBody :=
  match kind with
  | 1 => (levelOfPayload payload).map .level
  | 2 => (claimOfPayload payload).map .claim
  | 3 => (gateOfPayload payload).map .gate
  | 4 => (haltOfPayload payload).map .halt
  | 5 => if 2 ≤ payload.length ∧ payload.length ≤ 12 then some (.order payload) else none
  | 6 => if 3 ≤ payload.length ∧ payload.length ≤ 14 then some (.reply payload) else none
  | _ => none

/-- The bytes the check covers: sender, kind, length and payload (R156). -/
def checkedPart (sender : Nat) (b : PostBody) : List Byte :=
  byteOf sender :: byteOf (kindCode b) :: byteOf (payloadOf b).length :: payloadOf b

/-- A post's bytes on the line, from the lead mark to the last check byte (R156). -/
def frameOf (sender : Nat) (b : PostBody) : List Byte :=
  0xC3#8 :: (checkedPart sender b ++ checkBytes (crcOf (checkedPart sender b)))

/-- What LIF makes of a post's bytes (R161, R162). -/
inductive Verdict where
  | framing
  | check
  | clean (p : RxPost)
  deriving DecidableEq, Repr

/-- The judgement of a post's bytes. A first byte other than the lead mark, a sender above 63, a length above 14, or fewer bytes
than the length byte calls for, is a framing error of R161; then the check, then kind, length and fields (R162). The receiver
collects exactly the bytes the length calls for; bytes after them begin no post (log entry 22). -/
def judgePost (bytes : List Byte) : Verdict :=
  match bytes with
  | lead :: sender :: kind :: len :: rest =>
    if lead ≠ 0xC3#8 ∨ 63 < sender.toNat ∨ 14 < len.toNat ∨ rest.length < len.toNat + 2 then .framing
    else if crcOf (sender :: kind :: len :: rest.take (len.toNat + 2)) ≠ 0#16 then .check
    else
      match bodyOf kind.toNat (rest.take len.toNat) with
      | some b => .clean { sender := sender.toNat, body := b }
      | none => .framing
  | _ => .framing

/-! ### Orders (R158) -/

/-- The three bytes of a 3-byte argument. -/
def bytes3 (v : BitVec 24) : List Byte := [v.extractLsb' 16 8, v.extractLsb' 8 8, v.extractLsb' 0 8]

/-- The four bytes of a 4-byte argument. -/
def bytes4 (v : BitVec 32) : List Byte :=
  [v.extractLsb' 24 8, v.extractLsb' 16 8, v.extractLsb' 8 8, v.extractLsb' 0 8]

/-- The target, code and argument bytes of an order command, by the table of R158; none for a command that is no order. -/
def orderParts (i : Instr) : Option (Nat × Nat × Byte × List Byte) :=
  match i with
  | .climb s t => some (s, t, 1, [])
  | .hold s t => some (s, t, 2, [])
  | .setup s t => some (s, t, 3, [])
  | .clear s t => some (s, t, 4, [])
  | .trimUp s t => some (s, t, 5, [1])
  | .trimDown s t => some (s, t, 5, [2])
  | .trimSet s t v => some (s, t, 5, [3, v])
  | .heightSet s t v => some (s, t, 6, 1 :: bytes3 v)
  | .heightAdopt s t => some (s, t, 6, [2])
  | .planeSet s t v => some (s, t, 7, 1 :: bytes3 v)
  | .planeWithdraw s t => some (s, t, 7, [2])
  | .window s t c f l => some (s, t, 8, [c, f, l])
  | .read s t p => some (s, t, 9, [p])
  | .amendBegin s t => some (s, t, 10, [])
  | .amend s t v => some (s, t, 11, bytes3 v)
  | .setting s t f v => some (s, t, 12, f :: bytes4 v)
  | .store s t => some (s, t, 13, [])
  | .defaults s t => some (s, t, 14, [])
  | .calibrate s t => some (s, t, 15, [])
  | .restart s t => some (s, t, 16, [])
  | .status s t p => some (s, t, 17, [p])
  | .orderInvalid s t c a => some (s, t, c, a)
  | .orderWhileStoring s t c a => some (s, t, c, a)
  | _ => none

/-- The order an ORDER post spells by its code and argument bytes (R158); none if the code is not one of the seventeen, the
variant is unknown, or the length is not the one given for the code and variant (R177). -/
def orderOf (sender target : Nat) (code : Byte) (args : List Byte) : Option Instr :=
  match code.toNat, args with
  | 1, [] => some (.climb sender target)
  | 2, [] => some (.hold sender target)
  | 3, [] => some (.setup sender target)
  | 4, [] => some (.clear sender target)
  | 5, [v] =>
    if v = 1 then some (.trimUp sender target) else if v = 2 then some (.trimDown sender target) else none
  | 5, [v, n] => if v = 3 then some (.trimSet sender target n) else none
  | 6, [v] => if v = 2 then some (.heightAdopt sender target) else none
  | 6, [v, a, b, c] => if v = 1 then some (.heightSet sender target (a ++ b ++ c)) else none
  | 7, [v] => if v = 2 then some (.planeWithdraw sender target) else none
  | 7, [v, a, b, c] => if v = 1 then some (.planeSet sender target (a ++ b ++ c)) else none
  | 8, [c, f, l] => some (.window sender target c f l)
  | 9, [p] => some (.read sender target p)
  | 10, [] => some (.amendBegin sender target)
  | 11, [a, b, c] => some (.amend sender target (a ++ b ++ c))
  | 12, [f, a, b, c, d] => some (.setting sender target f (a ++ b ++ c ++ d))
  | 13, [] => some (.store sender target)
  | 14, [] => some (.defaults sender target)
  | 15, [] => some (.calibrate sender target)
  | 16, [] => some (.restart sender target)
  | 17, [p] => some (.status sender target p)
  | _, _ => none

/-- The ORDER post of an order's parts, as the receive FIFO holds it. -/
def orderPost (sender target : Nat) (code : Byte) (args : List Byte) : RxPost :=
  { sender := sender, body := .order (byteOf target :: code :: args) }

/-! ### Replies (R159, R160) -/

/-- The refusal reasons (R159). -/
inductive Reason where
  | mode
  | key
  | range
  | busy
  | noHeight
  | noNeighbour
  | causePresent
  | noBase
  | window
  | state
  | settingsDefault
  | calibrationPending
  | columnUnknown
  | clash
  deriving DecidableEq, Repr

/-- The refusal reason codes (R159). -/
def reasonCode : Reason → Nat
  | .mode => 1
  | .key => 2
  | .range => 3
  | .busy => 4
  | .noHeight => 5
  | .noNeighbour => 6
  | .causePresent => 7
  | .noBase => 8
  | .window => 9
  | .state => 10
  | .settingsDefault => 11
  | .calibrationPending => 12
  | .columnUnknown => 13
  | .clash => 14

/-- A reply's result: DONE, or REFUSED with its reason (R159). -/
inductive Result where
  | done
  | refused (r : Reason)
  deriving DecidableEq, Repr

/-- A REPLY post's payload: the station answered, the order code, the result, the reason if REFUSED, then the data (R159). -/
def replyPayload (sender : Nat) (code : Byte) (r : Result) (data : List Byte) : List Byte :=
  match r with
  | .done => byteOf sender :: code :: 0 :: data
  | .refused why => byteOf sender :: code :: 1 :: byteOf (reasonCode why) :: data

/-- The weights of the hold causes (R159). -/
def holdCode (h : HoldSet) : Nat :=
  weights [(h.operator, 1), (h.haltClimb, 2), (h.haltAll, 4), (h.estop, 8), (h.key, 16), (h.mute, 32), (h.sense, 64)]

/-- The weights of the SAFE causes (R159). -/
def safeCode (f : SafeSet) : Nat :=
  weights [(f.spread, 1), (f.strokeRepeat, 2), (f.overpressure, 4), (f.valve, 8), (f.sectorClash, 16),
    (f.identityClash, 32), (f.restored, 64)]

/-- The collection of a code (R158). -/
def collectionOfCode : Nat → Option Collection
  | 1 => some .layers
  | 2 => some .peers
  | 3 => some .strokes
  | _ => none

/-- The collection codes (R158). -/
def collectionCode : Collection → Nat
  | .layers => 1
  | .peers => 2
  | .strokes => 3

/-- The layer state codes (R160). -/
def layerStateCode : LayerState → Nat
  | .pouring => 0
  | .placed => 1
  | .exiting => 2

/-- The layer flags byte (R160). -/
def layerFlagsCode (f : LayerFlags) : Nat :=
  weights [(f.merged, 1), (f.synthetic, 2), (f.yieldEnded, 4), (f.longPour, 8), (f.fallbackUsed, 16), (f.amended, 32),
    (f.outageCredited, 64)]

/-- The end cause codes (R160). -/
def endCauseCode : EndCause → Nat
  | .target => 1
  | .full => 2
  | .skew => 3
  | .cut => 4
  | .stall => 5
  | .noPressure => 6
  | .noReturn => 7
  | .transducer => 8
  | .powerCut => 9
  | .calibration => 10

/-- The form codes of STATUS page 3 (R160). -/
def formCode : Form → Nat
  | .noForm => 0
  | .level => 1
  | .creep => 2
  | .hold => 3
  | .reference => 4

/-- The reference basis codes of STATUS page 7 (R160). -/
def basisCode : Basis → Nat
  | .noBasis => 0
  | .twoNeighbours => 1
  | .oneNeighbour => 2
  | .ring => 3
  | .self => 4

/-- The channel state codes of STATUS page 2 (R160). -/
def chanStateCode : ChanState → Nat
  | .notValid => 0
  | .good => 1
  | .faulted => 2
  | .absent => 3

end Sys2Proof.Machine
end

