-- ==== Sys2Proof/Machine/Limits.lean ====
section
/-! DEFINITION. The setting table of R192 (numbers, ranges, defaults), the cross-field rules of R193 and the load test of R194. -/

namespace Sys2Proof.Machine

/-- The defaults of R192. The station default lies outside its range on purpose. -/
def defaultSettings : Settings :=
  { station := 0,
    sector := 0,
    ringSectors := 48,
    lineRate := 2,
    gateLimit := 2,
    formHeight := 12000,
    probe1 := 1500,
    probe2 := 4500,
    probe3 := 7500,
    probe4 := 10500,
    receiverOffset := 10000,
    nominalPace := 150,
    smax := 250,
    smin := 20,
    creepStroke := 60,
    gain := 12,
    lead := 150,
    spreadAlarm := 300,
    fillMin := 6000,
    cyclePeriod := 180,
    pLift := 1200,
    pRest := 50,
    pOver := 3200,
    skewLimit := 40,
    valveOverrun := 12,
    takeUp := 15,
    liftTimeout := 10,
    mRel := 90000,
    mStick := 180000,
    datum := -100,
    fallback := 20,
    gReq := 2500,
    gFull := 500,
    lMin := 300,
    pourLimit := 600,
    gateTravel := 6,
    lamp1 := 36,
    lamp2 := 24,
    lamp3 := 10,
    calibrateNext := 1,
    fullStroke := none }

/-- The range of each field number of R192, as SETTING and the load step test it. -/
def fieldRange (field : Nat) : Option (Int × Int) :=
  match field with
  | 1 => some (1, 62)
  | 2 => some (0, 47)
  | 3 => some (3, 48)
  | 4 => some (1, 3)
  | 5 => some (1, 6)
  | 6 => some (9000, 15000)
  | 7 => some (0, 14999)
  | 8 => some (0, 14999)
  | 9 => some (0, 14999)
  | 10 => some (0, 14999)
  | 11 => some (0, 30000)
  | 12 => some (20, 300)
  | 13 => some (50, 300)
  | 14 => some (10, 50)
  | 15 => some (10, 100)
  | 16 => some (0, 32)
  | 17 => some (20, 300)
  | 18 => some (100, 500)
  | 19 => some (3000, 10000)
  | 20 => some (60, 900)
  | 21 => some (800, 2500)
  | 22 => some (10, 500)
  | 23 => some (1000, 3900)
  | 24 => some (10, 200)
  | 25 => some (0, 50)
  | 26 => some (0, 60)
  | 27 => some (2, 20)
  | 28 => some (10000, 500000)
  | 29 => some (20000, 9999999)
  | 30 => some (-300, 200)
  | 31 => some (-200, 300)
  | 32 => some (1000, 10000)
  | 33 => some (300, 9000)
  | 34 => some (100, 2000)
  | 35 => some (60, 600)
  | 36 => some (2, 10)
  | 37 => some (0, 95)
  | 38 => some (0, 95)
  | 39 => some (0, 95)
  | 40 => some (0, 1)
  | 41 => some (100, 600)
  | _ => none

/-- The value of field `field` of a setting block; absent for field 41 until it is set, and for a number of no field. -/
def fieldValue (c : Settings) (field : Nat) : Option Int :=
  match field with
  | 1 => some c.station
  | 2 => some c.sector
  | 3 => some c.ringSectors
  | 4 => some c.lineRate
  | 5 => some c.gateLimit
  | 6 => some c.formHeight
  | 7 => some c.probe1
  | 8 => some c.probe2
  | 9 => some c.probe3
  | 10 => some c.probe4
  | 11 => some c.receiverOffset
  | 12 => some c.nominalPace
  | 13 => some c.smax
  | 14 => some c.smin
  | 15 => some c.creepStroke
  | 16 => some c.gain
  | 17 => some c.lead
  | 18 => some c.spreadAlarm
  | 19 => some c.fillMin
  | 20 => some c.cyclePeriod
  | 21 => some c.pLift
  | 22 => some c.pRest
  | 23 => some c.pOver
  | 24 => some c.skewLimit
  | 25 => some c.valveOverrun
  | 26 => some c.takeUp
  | 27 => some c.liftTimeout
  | 28 => some c.mRel
  | 29 => some c.mStick
  | 30 => some c.datum
  | 31 => some c.fallback
  | 32 => some c.gReq
  | 33 => some c.gFull
  | 34 => some c.lMin
  | 35 => some c.pourLimit
  | 36 => some c.gateTravel
  | 37 => some c.lamp1
  | 38 => some c.lamp2
  | 39 => some c.lamp3
  | 40 => some c.calibrateNext
  | 41 => c.fullStroke
  | _ => none

/-- A setting block with one field written (R186, R195); a number of no field writes nothing. -/
def setField (c : Settings) (field : Nat) (v : Int) : Settings :=
  match field with
  | 1 => { c with station := v }
  | 2 => { c with sector := v }
  | 3 => { c with ringSectors := v }
  | 4 => { c with lineRate := v }
  | 5 => { c with gateLimit := v }
  | 6 => { c with formHeight := v }
  | 7 => { c with probe1 := v }
  | 8 => { c with probe2 := v }
  | 9 => { c with probe3 := v }
  | 10 => { c with probe4 := v }
  | 11 => { c with receiverOffset := v }
  | 12 => { c with nominalPace := v }
  | 13 => { c with smax := v }
  | 14 => { c with smin := v }
  | 15 => { c with creepStroke := v }
  | 16 => { c with gain := v }
  | 17 => { c with lead := v }
  | 18 => { c with spreadAlarm := v }
  | 19 => { c with fillMin := v }
  | 20 => { c with cyclePeriod := v }
  | 21 => { c with pLift := v }
  | 22 => { c with pRest := v }
  | 23 => { c with pOver := v }
  | 24 => { c with skewLimit := v }
  | 25 => { c with valveOverrun := v }
  | 26 => { c with takeUp := v }
  | 27 => { c with liftTimeout := v }
  | 28 => { c with mRel := v }
  | 29 => { c with mStick := v }
  | 30 => { c with datum := v }
  | 31 => { c with fallback := v }
  | 32 => { c with gReq := v }
  | 33 => { c with gFull := v }
  | 34 => { c with lMin := v }
  | 35 => { c with pourLimit := v }
  | 36 => { c with gateTravel := v }
  | 37 => { c with lamp1 := v }
  | 38 => { c with lamp2 := v }
  | 39 => { c with lamp3 := v }
  | 40 => { c with calibrateNext := v }
  | 41 => { c with fullStroke := some v }
  | _ => c

/-- `v` lies in the range of field `field`. -/
def inFieldRange (field : Nat) (v : Int) : Bool :=
  match fieldRange field with
  | some (lo, hi) => decide (lo ≤ v ∧ v ≤ hi)
  | none => false

/-- R194, test 2: every field lies within its range; field 41 may instead be absent. -/
def fieldsInRange (c : Settings) : Bool :=
  ((List.range 41).map (· + 1)).all fun f =>
    match fieldValue c f with
    | some v => inFieldRange f v
    | none => f == 41

/-- The cross-field rules of R193. -/
def crossFieldsHold (c : Settings) : Bool :=
  decide (c.sector < c.ringSectors) &&
  decide (c.probe1 < c.probe2 ∧ c.probe2 < c.probe3 ∧ c.probe3 < c.probe4 ∧ c.probe4 < c.formHeight) &&
  decide (c.smin ≤ c.creepStroke) &&
  (match c.fullStroke with
    | some m => decide (c.smax ≤ m - 10)
    | none => true) &&
  decide (c.pRest < c.pLift ∧ c.pLift < c.pOver) &&
  decide (c.mRel + 10000 ≤ c.mStick) &&
  decide (c.gFull < c.gReq - 500)

/-- The four tests of the load step, in order (R194): the check, the ranges, the cross-field rules, a station other than 0. -/
def loadsGood (c : Settings) (checkAgrees : Bool) : Bool :=
  checkAgrees && fieldsInRange c && crossFieldsHold c && decide (c.station ≠ 0)

/-- A block whose write a power loss cut short (R195): its fields are free values (log entry 10). -/
def tornSettings (n : Nat) : Settings :=
  { station := Config.tornField n 1,
    sector := Config.tornField n 2,
    ringSectors := Config.tornField n 3,
    lineRate := Config.tornField n 4,
    gateLimit := Config.tornField n 5,
    formHeight := Config.tornField n 6,
    probe1 := Config.tornField n 7,
    probe2 := Config.tornField n 8,
    probe3 := Config.tornField n 9,
    probe4 := Config.tornField n 10,
    receiverOffset := Config.tornField n 11,
    nominalPace := Config.tornField n 12,
    smax := Config.tornField n 13,
    smin := Config.tornField n 14,
    creepStroke := Config.tornField n 15,
    gain := Config.tornField n 16,
    lead := Config.tornField n 17,
    spreadAlarm := Config.tornField n 18,
    fillMin := Config.tornField n 19,
    cyclePeriod := Config.tornField n 20,
    pLift := Config.tornField n 21,
    pRest := Config.tornField n 22,
    pOver := Config.tornField n 23,
    skewLimit := Config.tornField n 24,
    valveOverrun := Config.tornField n 25,
    takeUp := Config.tornField n 26,
    liftTimeout := Config.tornField n 27,
    mRel := Config.tornField n 28,
    mStick := Config.tornField n 29,
    datum := Config.tornField n 30,
    fallback := Config.tornField n 31,
    gReq := Config.tornField n 32,
    gFull := Config.tornField n 33,
    lMin := Config.tornField n 34,
    pourLimit := Config.tornField n 35,
    gateTravel := Config.tornField n 36,
    lamp1 := Config.tornField n 37,
    lamp2 := Config.tornField n 38,
    lamp3 := Config.tornField n 39,
    calibrateNext := Config.tornField n 40,
    fullStroke := Config.tornFullStroke n }

/-- The own station number in force (R192, R194). -/
def stationOf (c : Settings) : Nat := c.station.toNat

/-- The own sector in force. -/
def sectorOf (c : Settings) : Nat := c.sector.toNat

/-- The setting N, the number of sectors of the ring. -/
def ringOf (c : Settings) : Nat := c.ringSectors.toNat

/-- The bit time in microseconds of the line rate setting (R155, R192 field 4). -/
def bitTimeUs (c : Settings) : Nat :=
  if c.lineRate = 1 then 16 else if c.lineRate = 2 then 8 else 4

end Sys2Proof.Machine
end

