-- ==== Sys2Proof/Machine/Cold.lean ====
section
/-! DEFINITION. The state each block begins with at a start, as the chapters give it for a cold start (and, where the spec
makes no difference, for every start). -/

namespace Sys2Proof.Machine

/-- No flag set. -/
def noLayerFlags : LayerFlags :=
  { merged := false, synthetic := false, yieldEnded := false, longPour := false, fallbackUsed := false, amended := false,
    outageCredited := false }

/-- LCO at a cold start (R20). The depth reference absent and the pour-duration count at 0 are the model's choice: R20 lists
neither (log entry 31). -/
def lcoCold : Lco :=
  { column := [], known := false, runClock := 0, tickMs := 0, nextId := 0, releaseTotal := 0, depthRef := none,
    pourSeconds := 0 }

/-- PVW at every start (R45). -/
def pvwAtStart : Pvw := { peers := [], tableFull := false, sectorClash := false, identityClash := false }

/-- The last-computation record after every start: form NONE, every other field absent, bind clear (R46, R60). An absent basis is
held as `none` and an absent skipped mark as no, the model's choice (log entry 32). -/
def recordAtStart : CplRecord :=
  { minute := none, skipped := false, form := .noForm, basis := .noBasis, href := none, offset := none,
    spreadExceeded := none, error := none, slvl := none, cmax := none, cfill := none, crel := none, clead := none,
    scap := none, sfloor := none, allowance := none, bind := false }

/-- CPL at a cold start; the cycle timer is stopped (R46). -/
def cplCold : Cpl := { trim := 0, cycleMs := none, record := recordAtStart }

/-- SSQ at a cold start (R89). The coils count as good and the overpressure condition as off until a check or a result says
otherwise (log entry 16). -/
def ssqCold : Ssq :=
  { phase := .idle, stroke := none, height := 0, heightValid := false, heightLimit := false, laserDisagree := false,
    plane := none, strokeCount := 0, history := [], chatter := 0, liftEnable := false, dutyWritten := 0, dutyInForce := 0,
    releaseOn := false, liftCoilOpen := false, releaseCoilOpen := false, overpressure := false }

/-- An entry of the result table at every start (R131). -/
def entryNotValid : ChanEntry := { value := none, state := .notValid, fresh := false, outCount := 0, goodCount := 0 }

/-- The BEAM entry while the beam-present input is off (R121). -/
def entryAbsent : ChanEntry := { value := none, state := .absent, fresh := false, outCount := 0, goodCount := 0 }

/-- MSQ at every start (R131). -/
def msqAtStart (beamPresent : Bool) : Msq :=
  { table :=
      { j1 := entryNotValid, j2 := entryNotValid, j3 := entryNotValid, j4 := entryNotValid, pres := entryNotValid,
        fill := entryNotValid, t1 := entryNotValid, t2 := entryNotValid, t3 := entryNotValid, t4 := entryNotValid,
        beam := if beamPresent then entryNotValid else entryAbsent },
    scan := .j1, passDone := false, chain := none, pendingTrigger := none, overrun := false, sense := false }

/-- FCT at every start, from the closed-limit input (R114). The pour is blocked while FILL is not yet valid (R99). DESIGN CHOICE (log
entry 40): R114 stops every timer and gives a stopped one no value; the timers that are stopped and the backoff length are held as 0. -/
def fctAtStart (closedLimit : Bool) : Fct :=
  { gate := if closedLimit then .closed else .closing, motor := if closedLimit then .off else .closeDrive, travelMs := 0,
    pour := .dry, claimNumber := 0, ownClaim := none, settleMs := 0, backoffMs := 0, backoffLength := 0, pourSeconds := 0,
    needAtOpen := none, yieldMark := false, pendingBackoff := none, blocked := true }

/-- The empty set of hold causes. -/
def noHold : HoldSet :=
  { operator := false, haltClimb := false, haltAll := false, estop := false, key := false, mute := false, sense := false }

/-- The empty set of SAFE causes. -/
def noSafe : SafeSet :=
  { spread := false, strokeRepeat := false, overpressure := false, valve := false, sectorClash := false,
    identityClash := false, restored := false }

/-- MCT at a cold start, before the inputs are read (R154). -/
def mctCold : Mct :=
  { base := .setup, hold := noHold, safe := noSafe, restored := none, window := [], queuedHalt := none, lastHalt := none,
    settling := false, key := .run, estopActive := false }

/-- LIF at every start, with the own station as last sender (R174). R174 gives the rejoin timer, the rejoin count and the receiver no
value: that the two begin at 0 and the receiver as ready is the model's choice (log entry 38). -/
def lifAtStart (own : Nat) : Lif :=
  { haltSlot := none, claimSlot := none, gateSlot := none, levelSlot := none, replySlot := none, nextStamp := 0,
    transmitter := none, access := false, rx := .ready, fifo := [], lastSender := own, quietUs := 0, byteLeftUs := 0,
    bucket := 0, muted := false, rejoinMs := 0, rejoinCount := 0, silent := false, levelMs := none, framingErrors := 0,
    checkErrors := 0, overruns := 0, garbles := 0 }

/-- ORS after every start (R176). -/
def orsAtStart : Ors := { cursor := none, amend := false, storeWaiting := none, restartWaiting := false }

/-- LDR at the end of the restore-or-rebuild step: driven, both phases beginning on (R203, R204). -/
def ldrAtStart : Ldr := { lit := true, slowOn := true, fastOn := true, slowMs := 0, fastMs := 0 }

/-- A stored block that has never been written: its check does not agree (log entry 4). -/
def blankBlock : StoredBlock := { fields := defaultSettings, check := 0 }

/-- SRS right after steps 1 to 3 of a cold start whose load failed on a wrong check (R191, R194, R196, R200). DESIGN
CHOICE: the outage counter, of which R199 gives no value before a first save, is held as 0 (log entry 41), and so is the join listen's
timer before the listen (log entry 40). -/
def srsColdUnset : Srs :=
  { stored := some blankBlock, active := defaultSettings, staged := blankBlock.fields, loadResult := .default,
    checkAgreed := false, defaultsTaken := false, calibrationPending := true, write := none, writesWaiting := [],
    area := none, areaValid := false, outage := 0, life := .up, step := .deciding, joinMs := 0, restartReady := false }

/-- The inputs at rest: the gate at its closed end, no beam (log entry 4). -/
def pinsAtRest : Pins := { gateOpenLimit := false, gateClosedLimit := true, beamPresent := false }

end Sys2Proof.Machine
end

