-- ==== Sys2Proof/Machine/State.lean ====
section
/-! DEFINITION. The node's whole state, the reasons a step could stop, and the state right after reset. -/

namespace Sys2Proof.Machine

/-- The spec gives the block no fault that stops it: every command either has the effect its rule gives, or is an event that
does not come about in the state at hand and leaves it as it is (log entry 3). So this type has no constructor. -/
inductive Fault where
  deriving DecidableEq, Repr

/-- Why a command has no meaning. -/
inductive Refusal where
  /-- raised by `exec` alone, for a command with no meaning yet; safe: it stops where the hardware goes on -/
  | notModelled (mnemonic : String)
  deriving DecidableEq, Repr

/-- The node's state: one record for each block, the inputs, and three fields of the model's own. -/
structure State where
  /-- the line interface (chapter 8) -/
  lif : Lif
  /-- the peer view (chapter 2) -/
  pvw : Pvw
  /-- the layer column (chapter 1) -/
  lco : Lco
  /-- the climb planner (chapter 3) -/
  cpl : Cpl
  /-- the stroke sequencer (chapter 4) -/
  ssq : Ssq
  /-- the measurement sequencer (chapter 6) -/
  msq : Msq
  /-- the feed controller (chapter 5) -/
  fct : Fct
  /-- the mode controller (chapter 7) -/
  mct : Mct
  /-- the order responder (chapter 9) -/
  ors : Ors
  /-- the settings and retention store (chapter 10) -/
  srs : Srs
  /-- the lamp driver (chapter 11) -/
  ldr : Ldr
  /-- the inputs no block keeps (R205) -/
  pins : Pins
  /-- the node's millisecond time (R71); that it begins at 0 at a start is the model's choice (log entry 42) -/
  nowMs : Nat
  /-- the MODEL's own: how many free values have been used (log entries 10 and 11) -/
  freeCount : Nat
  /-- the MODEL's own: the commands that are waiting, first in, first out -/
  pending : List Instr
  deriving DecidableEq, Repr

/-- `s` with `lif` replaced. -/
def State.setLif (s : State) (x : Lif) : State := { s with lif := x }

/-- `s` with `pvw` replaced. -/
def State.setPvw (s : State) (x : Pvw) : State := { s with pvw := x }

/-- `s` with `lco` replaced. -/
def State.setLco (s : State) (x : Lco) : State := { s with lco := x }

/-- `s` with `cpl` replaced. -/
def State.setCpl (s : State) (x : Cpl) : State := { s with cpl := x }

/-- `s` with `ssq` replaced. -/
def State.setSsq (s : State) (x : Ssq) : State := { s with ssq := x }

/-- `s` with `msq` replaced. -/
def State.setMsq (s : State) (x : Msq) : State := { s with msq := x }

/-- `s` with `fct` replaced. -/
def State.setFct (s : State) (x : Fct) : State := { s with fct := x }

/-- `s` with `mct` replaced. -/
def State.setMct (s : State) (x : Mct) : State := { s with mct := x }

/-- `s` with `ors` replaced. -/
def State.setOrs (s : State) (x : Ors) : State := { s with ors := x }

/-- `s` with `srs` replaced. -/
def State.setSrs (s : State) (x : Srs) : State := { s with srs := x }

/-- `s` with `ldr` replaced. -/
def State.setLdr (s : State) (x : Ldr) : State := { s with ldr := x }

/-- `s` with `pins` replaced. -/
def State.setPins (s : State) (x : Pins) : State := { s with pins := x }

/-- `s` with `nowMs` replaced. -/
def State.setNowMs (s : State) (x : Nat) : State := { s with nowMs := x }

/-- `s` with `freeCount` replaced. -/
def State.setFreeCount (s : State) (x : Nat) : State := { s with freeCount := x }

/-- The node right after a cold start's restore-or-rebuild step with a stored block that was never written and its inputs at
rest: the values R20, R45, R46, R89, R114, R131, R154, R174, R176, R194 and R204 give (log entry 4). DESIGN CHOICE (log entry 42): the millisecond time
is 0. -/
def State.reset : State :=
  { lif := lifAtStart 0, pvw := pvwAtStart, lco := lcoCold, cpl := cplCold, ssq := ssqCold, msq := msqAtStart false,
    fct := fctAtStart true, mct := mctCold, ors := orsAtStart, srs := srsColdUnset, ldr := ldrAtStart, pins := pinsAtRest,
    nowMs := 0, freeCount := 0, pending := [] }

end Sys2Proof.Machine
end

