-- ==== Sys2Proof/Machine/Peers.lean ====
section
/-! DEFINITION. The peer table: its order, its updates and the answers PVW gives from it (chapter 2). Every function here is over
the table alone. -/

namespace Sys2Proof.Machine

/-- Sector order (R37). -/
def peerBefore (a b : Peer) : Bool :=
  decide (a.sector < b.sector ∨ (a.sector = b.sector ∧ a.station < b.station))

/-- An entry placed in sector order (R37). -/
def insertPeer (p : Peer) : List Peer → List Peer
  | [] => [p]
  | q :: qs => if peerBefore p q then p :: q :: qs else q :: insertPeer p qs

/-- The entry of a station (R27: no two entries carry the same station number). -/
def findPeer (station : Nat) (t : List Peer) : Option Peer := t.find? fun p => decide (p.station = station)

/-- The table without a station's entry. -/
def removePeer (station : Nat) (t : List Peer) : List Peer := t.filter fun p => decide (p.station ≠ station)

/-- The table with a station's entry put in the place of the one it had. -/
def putPeer (p : Peer) (t : List Peer) : List Peer := insertPeer p (removePeer p.station t)

/-- An entry is live (R35). -/
def isLive (p : Peer) : Bool := decide (p.ageMs < 2000)

/-- An entry's clash flag: another entry has its sector, or the own sector equals it while the own station is not 0 (R38). -/
def clashes (own ownSector : Nat) (t : List Peer) (p : Peer) : Bool :=
  t.any (fun q => decide (q.station ≠ p.station ∧ q.sector = p.sector)) || decide (own ≠ 0 ∧ ownSector = p.sector)

/-- The sector-clash condition as the table gives it (R39). -/
def sectorClashes (own ownSector : Nat) (t : List Peer) : Bool :=
  decide (own ≠ 0) && t.any fun p => decide (p.sector = ownSector)

/-- An entry qualifies (R41). -/
def qualifies (own ownSector : Nat) (t : List Peer) (p : Peer) : Bool :=
  isLive p && p.heightValid && !clashes own ownSector t p

/-- The qualifying entry in a sector (R41: there is at most one). -/
def qualifyingIn (own ownSector : Nat) (t : List Peer) (sector : Nat) : Option Peer :=
  t.find? fun p => decide (p.sector = sector) && qualifies own ownSector t p

/-- The sector distances a neighbour search looks at, nearest first (R41). -/
def searchDistances (ring : Nat) : List Nat := (List.range (min 6 (ring - 1))).map (· + 1)

/-- The left neighbour search (R41). -/
def leftSearch (own ownSector ring : Nat) (t : List Peer) : Option Peer :=
  (searchDistances ring).findSome? fun d => qualifyingIn own ownSector t ((ownSector + ring - d) % ring)

/-- The right neighbour search (R41). -/
def rightSearch (own ownSector ring : Nat) (t : List Peer) : Option Peer :=
  (searchDistances ring).findSome? fun d => qualifyingIn own ownSector t ((ownSector + d) % ring)

/-- The answers of the neighbour search (R41). -/
inductive Neighbours where
  | none
  | one (p : Peer)
  | two (left right : Peer)
  deriving DecidableEq, Repr

/-- The node's neighbours (R41). -/
def neighbours (own ownSector ring : Nat) (t : List Peer) : Neighbours :=
  match leftSearch own ownSector ring t, rightSearch own ownSector ring t with
  | some a, some b => if a.station = b.station then .one a else .two a b
  | some a, none => .one a
  | none, some b => .one b
  | none, none => .none

/-- The heights the ring statistics are taken over (R42). -/
def ringHeights (own ownSector : Nat) (ownHeight : Int) (ownValid : Bool) (t : List Peer) : List Int :=
  ((t.filter (qualifies own ownSector t)).map Peer.height) ++ (if ownValid then [ownHeight] else [])

/-- The ring mean; absent over no height (R42). -/
def meanOf (hs : List Int) : Option Int := if hs.isEmpty then none else some (hs.sum / hs.length)

/-- The ring minimum; absent over no height (R42). -/
def minOf : List Int → Option Int
  | [] => none
  | h :: hs => some (hs.foldl min h)

/-- The open count O (R44). -/
def openCount (t : List Peer) : Nat := t.countP fun p => decide (p.gate ≠ .closed)

/-- An entry with a gate using the pump: OPENING or OPEN (R44). -/
def gateInUse (p : Peer) : Bool := decide (p.gate = .opening ∨ p.gate = .opened)

/-- The closing count (R44). -/
def closingCount (t : List Peer) : Nat := t.countP fun p => decide (p.gate = .closing ∨ p.gate = .jammed)

/-- The jammed count (R44). -/
def jammedCount (t : List Peer) : Nat := t.countP fun p => decide (p.gate = .jammed)

/-- A need ranks ahead of the own need: larger, or equal with the smaller station number (R105, R110). -/
def ranksAhead (own : Nat) (ownNeed : Int) (station : Nat) (need : Int) : Bool :=
  decide (ownNeed < need ∨ (need = ownNeed ∧ station < own))

/-- An entry is a rival ahead of the own claim (R44, R105). -/
def rivalAhead (own : Nat) (ownNeed : Int) (p : Peer) : Bool :=
  match p.claim with
  | some c => decide (p.gate = .closed) && ranksAhead own ownNeed p.station c.need
  | none => false

/-- The own rank at the settle decision (R105). -/
def claimRank (own : Nat) (ownNeed : Int) (t : List Peer) : Nat := 1 + t.countP (rivalAhead own ownNeed)

/-- An open gate ranks ahead of the own gate (R44, R110). -/
def gateAhead (own : Nat) (ownNeed : Int) (p : Peer) : Bool :=
  gateInUse p && ranksAhead own ownNeed p.station (p.needAtOpen.getD 0)

/-- The own rank at a yield test (R110). -/
def gateRank (own : Nat) (ownNeed : Int) (t : List Peer) : Nat := 1 + t.countP (gateAhead own ownNeed)

/-- A, the gates using the pump while the own gate is open (R110). -/
def pumpGates (t : List Peer) : Nat := 1 + t.countP gateInUse + jammedCount t

/-- The fields a LEVEL post writes (R31). -/
def levelFields (p : LevelPost) (e : Peer) : Peer :=
  { e with
    sector := p.sector, height := p.height, heightValid := p.flags.heightValid, mode := p.mode,
    strokeCount := p.strokeCount, gate := p.gate, pour := p.pour, need := p.need }

/-- An entry with the need at open made absent where the gate is CLOSED (R31). -/
def needIfOpen (e : Peer) : Peer := if e.gate = .closed then { e with needAtOpen := none } else e

/-- An entry after a LEVEL post from its station, with the lapse tests of R34 (R31). -/
def levelUpdate (p : LevelPost) (e : Peer) : Peer :=
  let e := needIfOpen { levelFields p e with ageMs := 0 }
  if p.gate ≠ .closed ∨ p.pour ≠ .claiming then { e with claim := none } else e

/-- The entry a first LEVEL post creates (R30). -/
def newPeer (sender : Nat) (p : LevelPost) : Peer :=
  { station := sender, sector := p.sector, height := p.height, heightValid := p.flags.heightValid, mode := p.mode,
    strokeCount := p.strokeCount, gate := p.gate, pour := p.pour, need := p.need, needAtOpen := none, claim := none,
    ageMs := 0 }

/-- An entry after a CLAIM post from its station (R32). -/
def claimUpdate (p : ClaimPost) (e : Peer) : Peer :=
  { e with ageMs := 0, claim := some { need := p.need, number := p.number, ageMs := 0 } }

/-- An entry after a GATE post from its station, with the lapse test of R34 (R33). -/
def gateUpdate (p : GatePost) (e : Peer) : Peer :=
  { e with
    ageMs := 0
    gate := p.state
    needAtOpen := if p.state = .closed then none else some p.needAtOpen
    claim := if p.state = .closed then e.claim else none }

/-- FCT's part of an entry has changed: its gate state, its need at open or its current claim (R44). -/
def feedPartChanged (a b : Peer) : Bool :=
  decide (a.gate ≠ b.gate ∨ a.needAtOpen ≠ b.needAtOpen ∨ a.claim ≠ b.claim)

/-- The distance between two sectors counted around the ring, the shorter way (spec/00_scope.md, "Stations and sectors"). -/
def ringDistance (ring a b : Nat) : Nat := min ((a + ring - b % ring) % ring) ((b + ring - a % ring) % ring)

/-- The CLASH check of a CLIMB order fails: some entry within six sectors of the own sector carries the clash flag (R147). -/
def clashNear (own ownSector ring : Nat) (t : List Peer) : Bool :=
  t.any fun p => decide (ringDistance ring p.sector ownSector ≤ 6) && clashes own ownSector t p

end Sys2Proof.Machine
end

