-- ==== Sys2Proof/Machine/Flags.lean ====
section
/-! DEFINITION. The conditions, marks and modes that follow from the blocks' state and are not stored: the node mode, the creep
permission, the pour block, the sense condition, the own record and the output stages. -/

namespace Sys2Proof.Machine

/-! ### The cause sets and the mode (R134, R136, R139) -/

/-- A hold cause is in the set. -/
def holdHas (h : HoldSet) : HoldCause → Bool
  | .operator => h.operator
  | .haltClimb => h.haltClimb
  | .haltAll => h.haltAll
  | .estop => h.estop
  | .key => h.key
  | .mute => h.mute
  | .sense => h.sense

/-- The set with a hold cause put in (`true`) or taken out (`false`). -/
def holdPut (h : HoldSet) (c : HoldCause) (on : Bool) : HoldSet :=
  match c with
  | .operator => { h with operator := on }
  | .haltClimb => { h with haltClimb := on }
  | .haltAll => { h with haltAll := on }
  | .estop => { h with estop := on }
  | .key => { h with key := on }
  | .mute => { h with mute := on }
  | .sense => { h with sense := on }

/-- A SAFE cause is in the set. -/
def safeHas (f : SafeSet) : SafeCause → Bool
  | .spread => f.spread
  | .strokeRepeat => f.strokeRepeat
  | .overpressure => f.overpressure
  | .valve => f.valve
  | .sectorClash => f.sectorClash
  | .identityClash => f.identityClash
  | .restored => f.restored

/-- The set with a SAFE cause put in or taken out. -/
def safePut (f : SafeSet) (c : SafeCause) (on : Bool) : SafeSet :=
  match c with
  | .spread => { f with spread := on }
  | .strokeRepeat => { f with strokeRepeat := on }
  | .overpressure => { f with overpressure := on }
  | .valve => { f with valve := on }
  | .sectorClash => { f with sectorClash := on }
  | .identityClash => { f with identityClash := on }
  | .restored => { f with restored := on }

/-- The node mode (R134). -/
def modeOf (m : Mct) : Mode :=
  if m.safe ≠ noSafe then .safe
  else
    match m.base with
    | .setup => .setup
    | .running => if m.hold ≠ noHold then .hold else .climb

/-- Creep is permitted (R139). -/
def creepPermitted (m : Mct) : Bool := !(m.hold.haltAll || m.hold.estop || m.hold.key || m.hold.sense)

/-- The cut causes among the hold causes (R136, R138). -/
def isCutCause : HoldCause → Bool
  | .haltAll => true
  | .estop => true
  | .key => true
  | _ => false

/-- The reason a HALT post gives for a SAFE entry by this cause; none for the causes that queue no HALT post (R141, R143). -/
def haltReasonOf : SafeCause → Option HaltReason
  | .spread => some .spread
  | .strokeRepeat => some .strokeRepeat
  | .overpressure => some .overpressure
  | .valve => some .valve
  | .sectorClash => some .sectorClash
  | .identityClash => none
  | .restored => none

/-- The position of the key for a steady reading of its contacts (R146). -/
def keyPosition (c : KeyContacts) : KeyPos :=
  match c.run, c.hold, c.service with
  | true, false, false => .run
  | false, false, true => .service
  | _, _, _ => .hold

/-! ### The settings and whether the blocks run -/

/-- The own station number. -/
def ownStation (s : State) : Nat := stationOf s.srs.active

/-- The blocks other than LIF take events: the node is up and no RESTART waits (R164, R188, R198). -/
def blocksRun (s : State) : Bool := decide (s.srs.life = .up) && !s.ors.restartWaiting

/-- LIF takes events: the node is up (R201: LIF alone goes on running while a RESTART waits). -/
def lineRuns (s : State) : Bool := decide (s.srs.life = .up)

/-! ### FCT's conditions (R98, R99, R101) -/

/-- The current fill gap (R98). It is 0 while FILL has no value, when the pour is blocked (log entry 24). -/
def fillGap (s : State) : Int := clamp 0 15000 (s.msq.table.fill.value.getD 0)

/-- The pour is blocked (R99). -/
def pourBlocked (s : State) : Bool :=
  decide (modeOf s.mct = .safe) || s.mct.hold.haltAll || s.mct.hold.estop || decide (s.mct.key = .service) ||
    decide (s.msq.table.fill.state ≠ .good) || decide (s.fct.gate = .jammed) || s.lif.muted

/-- The conditions of R101 for entering WANT. -/
def wantsConcrete (s : State) : Bool :=
  decide (s.srs.active.gReq ≤ fillGap s) && decide (s.fct.gate = .closed) && !pourBlocked s && decide (ownStation s ≠ 0)

/-- The own need in a claim or a ranking: 15,000 tenths while the bind mark is set (R112). -/
def bindNeed (bind : Bool) (need : Int) : Int := if bind then 15000 else need

/-- The places left under the gate limit, K − O (R102, R105). -/
def placesLeft (s : State) : Int := s.srs.active.gateLimit - openCount s.pvw.peers

/-! ### MSQ's conditions (R129, R130) -/

/-- A channel entry is FAULTED. -/
def isFaulted (e : ChanEntry) : Bool := decide (e.state = .faulted)

/-- A channel entry is GOOD. -/
def isGood (e : ChanEntry) : Bool := decide (e.state = .good)

/-- The entries in scan order (R116). -/
def entriesOf (t : ChanTable) : List ChanEntry :=
  [t.j1, t.j2, t.j3, t.j4, t.pres, t.fill, t.t1, t.t2, t.t3, t.t4, t.beam]

/-- The entries of the jacks, J1 first. -/
def jackEntries (t : ChanTable) : List ChanEntry := [t.j1, t.j2, t.j3, t.j4]

/-- The sense condition as the table gives it (R129). -/
def senseHolds (t : ChanTable) : Bool := isFaulted t.pres || decide (2 ≤ (jackEntries t).countP isFaulted)

/-- Some channel is FAULTED (R43, R130, R202). A FAULTED BEAM that turns ABSENT no longer counts, the model's reading of R130 (log
entry 34). -/
def anyChannelFaulted (t : ChanTable) : Bool := (entriesOf t).any isFaulted

/-! ### The own record (R43) -/

/-- The need of the own record (R43). -/
def ownNeed (s : State) : Int :=
  match s.fct.pour with
  | .want => fillGap s
  | .claiming => fillGap s
  | .backoff => fillGap s
  | _ => 0

/-- The own record, as the content a LEVEL post latches (R43, R157, R167). -/
def ownRecord (s : State) : LevelPost :=
  { sector := sectorOf s.srs.active
    mode := modeOf s.mct
    flags :=
      { heightValid := s.ssq.heightValid, bind := s.cpl.record.bind, settling := s.mct.settling,
        channelFault := anyChannelFaulted s.msq.table, laserDisagree := s.ssq.laserDisagree,
        heightLimit := s.ssq.heightLimit }
    height := s.ssq.height
    strokeCount := s.ssq.strokeCount
    gate := s.fct.gate
    pour := s.fct.pour
    need := ownNeed s }

/-! ### The output stages (R66, R67, R93) -/

/-- The duty with which the lift coil is energised, percent: the duty in force while the enable is given (R66). -/
def liftCoilDuty (q : Ssq) : Nat := if q.liftEnable then q.dutyInForce else 0

/-- The release output is energised (R67). -/
def releaseCoilOn (q : Ssq) : Bool := q.releaseOn && !q.liftEnable

/-- The gate's open drive output is driven (R93). -/
def openDriveOn (s : State) : Bool := decide (s.fct.motor = .openDrive) && decide (modeOf s.mct ≠ .safe)

/-- The gate's close drive output is driven (R93). -/
def closeDriveOn (s : State) : Bool := decide (s.fct.motor = .closeDrive)

/-! ### The lamps (R202 to R204) -/

/-- A lamp source is on (R202). -/
def lampSource (s : State) (source : Int) : Bool :=
  match source with
  | 0 => decide (s.ssq.phase ≠ .idle)
  | 1 => decide (s.fct.gate = .opening ∨ s.fct.gate = .opened)
  | 2 => decide (s.fct.pour = .want ∨ s.fct.pour = .claiming ∨ s.fct.pour = .backoff)
  | 3 => decide (modeOf s.mct = .hold)
  | 4 => decide (modeOf s.mct = .safe)
  | 5 => s.cpl.record.bind
  | 6 => match s.cpl.record.offset with | some d => decide (50 < d) | none => false
  | 7 => match s.cpl.record.offset with | some d => decide (d < -50) | none => false
  | 8 => s.lif.muted
  | 9 => anyChannelFaulted s.msq.table || decide (s.fct.gate = .jammed)
  | 10 => true
  | _ => false

/-- The lamp's demand: its source, reversed where the invert flag is set (R202, R203). -/
def lampDemand (s : State) (code : Int) : Bool := lampSource s (code / 8) != decide (code % 2 = 1)

/-- The lamp output of a selection code (R202 to R204). -/
def lampOutput (s : State) (code : Int) : Bool :=
  s.ldr.lit && lampDemand s code &&
    (match (code % 8) / 2 with
      | 1 => s.ldr.slowOn
      | 2 => s.ldr.fastOn
      | _ => true)

/-- The three lamp outputs, by the selections in force (R203). -/
def lampOutputs (s : State) : List Bool :=
  [lampOutput s s.srs.active.lamp1, lampOutput s s.srs.active.lamp2, lampOutput s s.srs.active.lamp3]

end Sys2Proof.Machine
end

