-- ==== Sys2Proof/Machine/Line.lean ====
section
/-! DEFINITION. LIF's transmit queue, access gap, receiver, read-back and MUTE (chapter 8). Every function here acts on LIF's own
state alone. -/

namespace Sys2Proof.Machine

/-! ### The transmit queue (R166, R167) -/

/-- A post queued into a slot: a post waiting there is replaced in place and the slot keeps its age (R166). -/
def fillSlot {α : Type} (slot : Option (Slot α)) (post : α) (stamp : Nat) : Option (Slot α) :=
  match slot with
  | some x => some { x with post := post }
  | none => some { post := post, stamp := stamp }

/-- A HALT post queued. -/
def queueHaltPost (p : HaltPost) (l : Lif) : Lif :=
  { l with haltSlot := fillSlot l.haltSlot p l.nextStamp, nextStamp := l.nextStamp + 1 }

/-- A CLAIM post queued. -/
def queueClaimPost (p : ClaimPost) (l : Lif) : Lif :=
  { l with claimSlot := fillSlot l.claimSlot p l.nextStamp, nextStamp := l.nextStamp + 1 }

/-- A GATE post queued. -/
def queueGatePost (p : GatePost) (l : Lif) : Lif :=
  { l with gateSlot := fillSlot l.gateSlot p l.nextStamp, nextStamp := l.nextStamp + 1 }

/-- The LEVEL slot filled (R167); not at an unset station (R175). -/
def wantLevelPost (own : Nat) (l : Lif) : Lif :=
  if own = 0 then l else { l with levelSlot := fillSlot l.levelSlot () l.nextStamp, nextStamp := l.nextStamp + 1 }

/-- A REPLY post queued; in MUTE it is discarded at once (R171), also where LIF is silent too, the model's reading of R171 and R173
(log entry 36). -/
def queueReplyPost (p : List Byte) (l : Lif) : Lif :=
  if l.muted then l else { l with replySlot := fillSlot l.replySlot p l.nextStamp, nextStamp := l.nextStamp + 1 }

/-- A post of this kind is in the transmitter. -/
def transmitting (l : Lif) (kind : Nat) : Bool :=
  match l.transmitter with
  | some t => decide (kindCode t.body = kind)
  | none => false

/-- The withdrawal of the CLAIM post (R168): its slot is emptied; where the slot is empty and a CLAIM post is in the
transmitter, the answer is "too late", which LIF remembers. -/
def withdrawClaimPost (l : Lif) : Lif :=
  match l.claimSlot with
  | some _ => { l with claimSlot := none }
  | none =>
    match l.transmitter with
    | some t => if kindCode t.body = 2 then { l with transmitter := some { t with tooLate := true } } else l
    | none => l

/-! ### Access (R165) -/

/-- The class of a post (R165). -/
def txClass : TxKind → Nat
  | .halt => 0
  | .claim => 1
  | .gate => 1
  | .level => 2
  | .reply => 2

/-- The older of two slots of one class (R166). -/
def olderOf {α β : Type} (a : Option (Slot α)) (b : Option (Slot β)) (ka kb : TxKind) : Option TxKind :=
  match a, b with
  | some x, some y => if x.stamp ≤ y.stamp then some ka else some kb
  | some _, none => some ka
  | none, some _ => some kb
  | none, none => none

/-- The post that goes first: of the lowest class, and of that class the oldest (R166). -/
def firstPost (l : Lif) : Option TxKind :=
  match l.haltSlot with
  | some _ => some .halt
  | none =>
    match olderOf l.claimSlot l.gateSlot .claim .gate with
    | some k => some k
    | none => olderOf l.levelSlot l.replySlot .level .reply

/-- The access gap in bit times (R165). -/
def accessGap (own lastSender cls : Nat) : Nat := 10 + 64 * cls + (((own : Int) - lastSender - 1) % 64).toNat

/-- The post that leaves its slot and its age; a LEVEL post latches the own record (R166, R167). -/
def slotContent (k : TxKind) (record : LevelPost) (l : Lif) : Option (PostBody × Nat) :=
  match k with
  | .halt => l.haltSlot.map fun x => (.halt x.post, x.stamp)
  | .claim => l.claimSlot.map fun x => (.claim x.post, x.stamp)
  | .gate => l.gateSlot.map fun x => (.gate x.post, x.stamp)
  | .level => l.levelSlot.map fun x => (.level record, x.stamp)
  | .reply => l.replySlot.map fun x => (.reply x.post, x.stamp)

/-- A slot emptied. -/
def emptySlot (k : TxKind) (l : Lif) : Lif :=
  match k with
  | .halt => { l with haltSlot := none }
  | .claim => { l with claimSlot := none }
  | .gate => { l with gateSlot := none }
  | .level => { l with levelSlot := none }
  | .reply => { l with replySlot := none }

/-- The quiet time in whole bit times, as counted or, where that is more, as reported with a command (log entry 2). -/
def quietBits (bitUs reported : Nat) (l : Lif) : Nat := max reported (l.quietUs / bitUs)

/-- The first post begins (R166): it leaves its slot for the transmitter. Its start bit sets the quiet time to 0 until the end of the
byte it opens (R155), and the receiver, which hears the node's own bits, begins to assemble (R161). -/
def beginPost (own : Nat) (record : LevelPost) (bitUs : Nat) (k : TxKind) (l : Lif) : Lif :=
  match slotContent k record l with
  | some (body, stamp) =>
    { emptySlot k l with
      transmitter := some { body := body, stamp := stamp, tooLate := false, bytes := frameOf own body }
      rx := .assembling
      quietUs := 0
      byteLeftUs := 10 * bitUs }
  | none => l

/-- Whether the receiver takes what it hears: not after a framing error, until the quiet time again exceeds 3 bit times (R161). -/
def hears (l : Lif) : Bool := decide (l.rx ≠ .errored)

/-- The receiver waits for the next post again once the quiet time exceeds 3 bit times after a framing error (R161). -/
def errorPassed (bitUs : Nat) (l : Lif) : Lif :=
  if l.rx = .errored ∧ 3 < l.quietUs / bitUs then { l with rx := .ready } else l

/-- The quiet time has been reported to be `quiet` bit times (log entry 2); it does not count while this node sends (R155). -/
def quietReported (bitUs quiet : Nat) (l : Lif) : Lif :=
  if l.transmitter.isSome then l else errorPassed bitUs { l with quietUs := max l.quietUs (quiet * bitUs) }

/-- LIF may start a post: access has begun, it is neither in MUTE nor silent, and nothing is in the transmitter
(R171, R173, R174). -/
def maySend (l : Lif) : Bool := l.access && !l.muted && !l.silent && l.transmitter.isNone

/-- The quiet time has reached `quiet` bit times (R165): the first post begins if its gap has been reached. -/
def accessLine (own : Nat) (record : LevelPost) (bitUs quiet : Nat) (l : Lif) : Lif :=
  match firstPost l with
  | some k =>
    if maySend l ∧ accessGap own l.lastSender (txClass k) ≤ quietBits bitUs quiet l then beginPost own record bitUs k l
    else quietReported bitUs quiet l
  | none => quietReported bitUs quiet l

/-! ### Read-back (R169, R170) -/

/-- A post returned to its slot with its old age, unless the slot holds a successor (R169). -/
def returnSlot {α : Type} (slot : Option (Slot α)) (post : α) (stamp : Nat) : Option (Slot α) :=
  match slot with
  | some x => some x
  | none => some { post := post, stamp := stamp }

/-- The garbled post returned, unless its withdrawal was answered "too late" (R168, R169). -/
def returnPost (t : Transmission) (l : Lif) : Lif :=
  if t.tooLate then l
  else
    match t.body with
    | .halt p => { l with haltSlot := returnSlot l.haltSlot p t.stamp }
    | .claim p => { l with claimSlot := returnSlot l.claimSlot p t.stamp }
    | .gate p => { l with gateSlot := returnSlot l.gateSlot p t.stamp }
    | .level _ => { l with levelSlot := returnSlot l.levelSlot () t.stamp }
    | .reply p => { l with replySlot := returnSlot l.replySlot p t.stamp }
    | .order _ => l

/-- Steps 1 to 4 of a garble (R169): this station stops driving, and its receiver goes on assembling what it hears. The quiet time
counts again from the end of the byte that its last start bit opened (R155). -/
def garbleLine (own : Nat) (t : Transmission) (l : Lif) : Lif :=
  returnPost t
    { l with
      transmitter := none, bucket := l.bucket + 8, garbles := satAdd 65535 l.garbles 1, lastSender := own,
      rx := .assembling }

/-- LIF enters MUTE (R171): the CLAIM and REPLY slots are emptied, the rejoin timer starts. DEDUCED (log entry 43): so too where the
garble that brings it about falls in silence, in which R173 lets nothing empty the slots. -/
def enterMute (l : Lif) : Lif :=
  { l with muted := true, claimSlot := none, replySlot := none, rejoinMs := 0, rejoinCount := 0 }

/-- A clean own post (R170): the receiver has heard it to its last stop bit, where the quiet time begins (R155). -/
def sentLine (own : Nat) (l : Lif) : Lif :=
  { l with
    transmitter := none, bucket := l.bucket - 1, lastSender := own, rx := .ready, quietUs := 0, byteLeftUs := 0 }

/-- The moment to leave MUTE has come: the rejoin timer has reached 4,000 ms and the rejoin count 8 (R172). -/
def rejoinDue (l : Lif) : Bool := l.muted && decide (4000 ≤ l.rejoinMs) && decide (8 ≤ l.rejoinCount)

/-- LIF leaves MUTE (R172). -/
def leaveMute (l : Lif) : Lif := { l with muted := false, bucket := 40 }

/-! ### Receiving (R155, R161 to R164) -/

/-- A start bit from another station, `quiet` bit times after the last stop bit as reported (R155, R161). -/
def startBitLine (bitUs quiet : Nat) (l : Lif) : Lif :=
  { l with
    rx := if 3 < quietBits bitUs quiet l then .assembling else l.rx
    quietUs := 0
    byteLeftUs := 10 * bitUs }

/-- A framing or check error restarts the rejoin timer and clears the rejoin count in MUTE (R162, R172). -/
def rejoinRestart (l : Lif) : Lif := if l.muted then { l with rejoinMs := 0, rejoinCount := 0 } else l

/-- Traffic ends with the byte whose event this is: its start bits set the quiet time to 0, and counting starts again now (R155;
log entry 22). -/
def trafficEnded (l : Lif) : Lif := { l with quietUs := 0, byteLeftUs := 0 }

/-- A framing error counted, with its further effects (R161, R162): the receiver takes nothing until the line is quiet again. -/
def countFraming (l : Lif) : Lif := rejoinRestart { l with framingErrors := satAdd 65535 l.framingErrors 1, rx := .errored }

/-- A framing error of the post in progress, found `quiet` bit times after its last stop bit (R155, R161): at once where a byte shows
it; past 3 bit times where the gap between two bytes does, so that the quiet time already ends the wait which the error begins. One
post gives at most one error, so none is counted while the receiver takes nothing. -/
def framingErrorLine (bitUs quiet : Nat) (l : Lif) : Lif :=
  errorPassed bitUs { (if hears l then countFraming l else l) with quietUs := quiet * bitUs, byteLeftUs := 0 }

/-- A check error counted, with its further effects (R162). -/
def countCheck (l : Lif) : Lif := rejoinRestart { l with checkErrors := satAdd 65535 l.checkErrors 1, rx := .ready }

/-- A post is of a kind that a block of this node takes (R163). A clean post with the own number is not placed in the FIFO. -/
def takesPost (own : Nat) (p : RxPost) : Bool :=
  decide (p.sender ≠ own) &&
    match p.body with
    | .order (target :: _) =>
      decide (1 ≤ p.sender ∧ p.sender ≤ 62) &&
        decide (target.toNat = own ∨ target.toNat = 63)
    | .order [] => false
    | .reply _ => false
    | _ => true

/-- A post offered to the receive FIFO (R164). -/
def offerPost (p : RxPost) (l : Lif) : Lif :=
  if l.fifo.length < 2 then { l with fifo := l.fifo ++ [p] } else { l with overruns := satAdd 65535 l.overruns 1 }

/-- A clean post of another station (R163): last sender, rejoin count, FIFO. -/
def cleanPostLine (own : Nat) (p : RxPost) (l : Lif) : Lif :=
  let l1 :=
    { l with
      lastSender := p.sender, rx := .ready,
      rejoinCount := if l.muted then satAdd 255 l.rejoinCount 1 else l.rejoinCount }
  if takesPost own p then offerPost p l1 else l1

/-- A post judged (R162, R163). -/
def judgedLine (own : Nat) (v : Verdict) (l : Lif) : Lif :=
  match v with
  | .framing => countFraming l
  | .check => countCheck l
  | .clean p => cleanPostLine own p l

/-- A post that arrived complete; the quiet time begins at its last stop bit (R155). Nothing is taken while a framing error keeps the
receiver from the line (R161). -/
def receiveLine (own : Nat) (v : Verdict) (l : Lif) : Lif := trafficEnded (if hears l then judgedLine own v l else l)

/-- The verdict is a clean post that carries the own number, 1 to 62 (R40). -/
def isIdentityPost (own : Nat) (v : Verdict) : Bool :=
  match v with
  | .clean p => decide (p.sender = own ∧ 1 ≤ own ∧ own ≤ 62)
  | _ => false

/-- The receive FIFO once this post has been taken by its owner (R164): the post stands at its head and is removed. An empty
FIFO stands for a post that is taken in the moment it completes (log entry 6). None: another post is at the head, so this one
is not offered. -/
def takenFrom (p : RxPost) (l : Lif) : Option Lif :=
  match l.fifo with
  | [] => some l
  | h :: rest => if h = p then some { l with fifo := rest } else none

end Sys2Proof.Machine
end

