-- ==== Sys2Proof/Machine/Column.lean ====
section
/-! DEFINITION. What LCO does with the requests other blocks make of it, and its answers (chapter 1). Every function here acts on
LCO's own state alone. -/

namespace Sys2Proof.Machine

/-- The youngest record (R1). -/
def youngest (l : Lco) : Option Layer := l.column.getLast?

/-- Whether some record is POURING (R2). -/
def anyPouring (l : Lco) : Bool := l.column.any fun r => decide (r.state = .pouring)

/-- Ctop (R17). -/
def ctop (own : Int) (l : Lco) : Int :=
  match youngest l with
  | some r => r.top
  | none => own

/-- Crel, from the oldest record with maturity below M_rel; absent where there is none (R18). -/
def crel (mRel own : Int) (l : Lco) : Option Int :=
  (l.column.find? fun r => decide ((r.maturity : Int) < mRel)).map fun r => max 0 (r.bottom - own)

/-- Stick (R19). -/
def stick (mStick : Int) (l : Lco) : Bool :=
  match l.column.head? with
  | some r => decide (mStick ≤ (r.maturity : Int))
  | none => false

/-- The column is reported clear for calibration (R19). -/
def clearForCalibration (mRel : Int) (l : Lco) : Bool :=
  l.known && l.column.all fun r => decide (mRel ≤ (r.maturity : Int))

/-- The first id from `id` on, wrapping, that none of `ids` is (R3). -/
def freeIdFrom (ids : List Nat) : Nat → Nat → Nat
  | 0, id => id
  | fuel + 1, id => if id ∈ ids then freeIdFrom ids fuel ((id + 1) % 65536) else id

/-- The id LCO takes at an allocation (R3). -/
def allocatedId (l : Lco) : Nat := freeIdFrom (l.column.map Layer.id) l.column.length l.nextId

/-- A record's state at a classification (R7, R8). -/
def classify (own : Int) (r : Layer) : Layer :=
  { r with state := if r.bottom ≤ own then .exiting else .placed }

/-- The records left after the removals of the release pass, from the old end (R9). -/
def dropReleased (own : Int) : List Layer → List Layer
  | [] => []
  | r :: rs => if r.state ≠ .pouring ∧ r.top ≤ own then dropReleased own rs else r :: rs

/-- The re-marking of the release pass (R9). -/
def markExiting (own : Int) (r : Layer) : Layer :=
  if r.state ≠ .pouring ∧ r.bottom ≤ own then { r with state := .exiting } else r

/-- The release pass (R9). -/
def releasePass (own : Int) (l : Lco) : Lco :=
  { l with
    column := (dropReleased own l.column).map (markExiting own)
    releaseTotal := satAdd 65535 l.releaseTotal (l.column.length - (dropReleased own l.column).length) }

/-- The record an open request appends (R4). -/
def newPouring (own : Int) (l : Lco) : Layer :=
  { id := allocatedId l, state := .pouring, bottom := ctop own l, top := ctop own l, maturity := 0,
    pourStart := l.runClock, duration := none, flags := noLayerFlags }

/-- A record reopened on a full column (R5). -/
def reopened (clock : Nat) (r : Layer) : Layer :=
  { r with state := .pouring, maturity := 0, flags := { r.flags with merged := true }, pourStart := clock, duration := none }

/-- FCT's open request (R4, R5). -/
def openLayer (own : Int) (l : Lco) : Lco :=
  if anyPouring l then l
  else if l.column.length < 12 then
    { l with
      column := l.column ++ [newPouring own l]
      nextId := (allocatedId l + 1) % 65536
      depthRef := some (ctop own l)
      pourSeconds := 0 }
  else
    match youngest l with
    | some r =>
      { l with column := l.column.dropLast ++ [reopened l.runClock r], depthRef := none, pourSeconds := 0 }
    | none => l

/-- The top a FILL reading gives a POURING record (R6, R22). -/
def candidateTop (own formHeight gap : Int) : Int := min maxHeight (own + formHeight - gap)

/-- A good FILL result while a record is POURING (R6). -/
def raiseTop (own formHeight gap : Int) (l : Lco) : Lco :=
  { l with
    column := l.column.map fun r =>
      if r.state = .pouring then { r with top := max r.top (candidateTop own formHeight gap) } else r }

/-- The synthetic record (R22). -/
def syntheticLayer (own top : Int) (l : Lco) : Layer :=
  { id := allocatedId l, state := .placed, bottom := own, top := top, maturity := 0, pourStart := l.runClock,
    duration := some 0, flags := { noLayerFlags with synthetic := true } }

/-- The first good FILL result after a cold start (R22). The column is then empty; a record is created in an empty column alone
(log entry 24). -/
def makeKnown (own formHeight gap : Int) (l : Lco) : Lco :=
  if own < candidateTop own formHeight gap ∧ l.column = [] then
    { l with
      known := true
      column := l.column ++ [syntheticLayer own (candidateTop own formHeight gap) l]
      nextId := (allocatedId l + 1) % 65536 }
  else { l with known := true }

/-- A good FILL result as LCO takes it (R6, R22, R130). -/
def fillReading (own formHeight gap : Int) (l : Lco) : Lco :=
  if l.known then raiseTop own formHeight gap l else makeKnown own formHeight gap l

/-- The flags that the end reason sets (R7, step 2). -/
def endFlags (reason : EndReason) (f : LayerFlags) : LayerFlags :=
  { f with longPour := f.longPour || decide (reason = .timeLimit), yieldEnded := f.yieldEnded || decide (reason = .yielded) }

/-- The ending record after steps 1 and 2 of R7. -/
def endedRecord (reason : EndReason) (seconds : Nat) (r : Layer) : Layer :=
  { r with duration := some seconds, flags := endFlags reason r.flags }

/-- The thin-pour test (R7, step 3), given that an older record exists. -/
def isThin (lMin : Int) (depthRef : Option Int) (r : Layer) : Bool :=
  match depthRef with
  | some d => decide (r.top - d < lMin)
  | none => false

/-- The receiving record of a thin-pour merge (R8). -/
def mergedInto (ending receiving : Layer) : Layer :=
  { receiving with
    top := ending.top
    maturity := 0
    flags :=
      { receiving.flags with
        merged := true
        longPour := receiving.flags.longPour || ending.flags.longPour
        yieldEnded := receiving.flags.yieldEnded || ending.flags.yieldEnded } }

/-- The column after steps 1 to 4 of R7, where `older` are the records before the POURING one. -/
def endedColumn (own lMin : Int) (reason : EndReason) (l : Lco) (older : List Layer) (r : Layer) : List Layer :=
  match older.getLast? with
  | some receiving =>
    if isThin lMin l.depthRef r then
      older.dropLast ++ [classify own (mergedInto (endedRecord reason l.pourSeconds r) receiving)]
    else older ++ [classify own (endedRecord reason l.pourSeconds r)]
  | none => [classify own (endedRecord reason l.pourSeconds r)]

/-- FCT's end request (R7, R8). -/
def endLayer (own lMin : Int) (reason : EndReason) (l : Lco) : Lco :=
  match youngest l with
  | some r =>
    if r.state = .pouring then
      releasePass own { l with column := endedColumn own lMin reason l l.column.dropLast r, depthRef := none }
    else l
  | none => l

/-- A layer boundary moved by a frame shift, limited to the height range (R11). -/
def shiftHeight (d h : Int) : Int := clamp 0 maxHeight (h + d)

/-- A frame shift of `d` tenths to the new own height `own` (R11). -/
def shiftColumn (d own : Int) (l : Lco) : Lco :=
  releasePass own
    { l with
      column := l.column.map fun r => { r with bottom := shiftHeight d r.bottom, top := shiftHeight d r.top }
      depthRef := l.depthRef.map (shiftHeight d) }

/-- A candidate probe of R14: its depth and its value. -/
abbrev Probe := Int × Int

/-- The depth of a record's middle below the form top (R14). -/
def midDepth (own formHeight : Int) (r : Layer) : Int := own + formHeight - (r.bottom + r.top) / 2

/-- The nearer of two probes to depth `d`, the shallower where they are equally near (R14). -/
def nearer (d : Int) (a b : Probe) : Probe :=
  if (d - b.1).natAbs < (d - a.1).natAbs then b
  else if (d - b.1).natAbs = (d - a.1).natAbs ∧ b.1 < a.1 then b
  else a

/-- The probe chosen for depth `d` (R14); absent without a candidate. -/
def chosenProbe (d : Int) : List Probe → Option Probe
  | [] => none
  | p :: ps => some (ps.foldl (nearer d) p)

/-- Maturity gained, saturating (R13). -/
def gainMaturity (m : Nat) (tc t0 : Int) : Nat := satAdd 9999999 m (max 0 (tc - t0)).toNat

/-- One record at a maturity tick (R13 to R15). -/
def tickLayer (own formHeight t0 tfb : Int) (probes : List Probe) (r : Layer) : Layer :=
  match chosenProbe (midDepth own formHeight r) probes with
  | some p => { r with maturity := gainMaturity r.maturity p.2 t0 }
  | none => { r with maturity := gainMaturity r.maturity tfb t0, flags := { r.flags with fallbackUsed := true } }

/-- A minute of the run clock with its maturity tick (R12, R13). -/
def tickColumn (own formHeight t0 tfb : Int) (probes : List Probe) (l : Lco) : Lco :=
  { l with
    runClock := satAdd 9999999 l.runClock 1
    tickMs := 0
    column := l.column.map (tickLayer own formHeight t0 tfb probes) }

/-- One record credited for an outage (R24). -/
def creditLayer (minutes : Nat) (t0 tfb : Int) (r : Layer) : Layer :=
  { r with
    maturity := satAdd 9999999 r.maturity (minutes * (max 0 (tfb - t0)).toNat)
    flags := { r.flags with outageCredited := true } }

/-- The next-id counter after a warm start or a commanded restart (R3). -/
def restoredNextId (column : List Layer) : Nat :=
  match column.getLast? with
  | some r => (r.id + 1) % 65536
  | none => 0

/-- LCO at a warm start or a commanded restart, before any stroke credit (R20, R24). The depth reference absent and the
pour-duration count at 0 are the model's choice (log entry 31). -/
def restoreColumn (own t0 tfb : Int) (minutes : Nat) (saved : List Layer) (clock : Nat) : Lco :=
  releasePass own
    { column := if 0 < minutes then saved.map (creditLayer minutes t0 tfb) else saved, known := true, runClock := clock,
      tickMs := 0, nextId := restoredNextId saved, releaseTotal := 0, depthRef := none, pourSeconds := 0 }

/-- The outcomes of an AMEND at LCO (R25). -/
inductive AmendOutcome where
  | pouring
  | range
  | done (id : Nat) (l : Lco)
  deriving DecidableEq, Repr

/-- An AMEND of the record at a position (R25); the position is below the size (R185). -/
def amendLayer (position v : Nat) (l : Lco) : AmendOutcome :=
  match l.column[position]? with
  | some r =>
    if r.state = .pouring then .pouring
    else if 9999999 < v then .range
    else
      .done r.id
        { l with
          column := l.column.set position { r with maturity := v, flags := { r.flags with amended := true } } }
  | none => .pouring

end Sys2Proof.Machine
end

