-- ==== Sys2Proof/Machine/Planner.lean ====
section
/-! DEFINITION. CPL's computation at a cycle expiry (chapter 3): the reference, the spread check, the level stroke, the caps, the
floor, the dead band and the record. Every function here computes from values gathered from the blocks. -/

namespace Sys2Proof.Machine

/-! ### The reference (R51) -/

/-- A reference with its basis (R51). -/
structure RefAnswer where
  basis : Basis
  href : Option Int
  deriving DecidableEq, Repr

/-- Href and its basis, from PVW's neighbours, the ring heights and own height (R51). -/
def referenceOf (nb : Neighbours) (heights : List Int) (own : Int) (valid : Bool) : RefAnswer :=
  match nb, meanOf heights with
  | .two a b, some m => { basis := .twoNeighbours, href := some ((a.height + b.height + 2 * m) / 4) }
  | .one a, some m => { basis := .oneNeighbour, href := some ((a.height + m) / 2) }
  | .none, some m =>
    if 1 < heights.length then { basis := .ring, href := some m }
    else if valid then { basis := .self, href := some own }
    else { basis := .noBasis, href := none }
  | _, none => { basis := .noBasis, href := none }

/-- The node's neighbours as PVW gives them now (R41). -/
def nodeNeighbours (s : State) : Neighbours :=
  neighbours (ownStation s) (sectorOf s.srs.active) (ringOf s.srs.active) s.pvw.peers

/-- The heights of the ring statistics as PVW gives them now (R42). -/
def nodeHeights (s : State) : List Int :=
  ringHeights (ownStation s) (sectorOf s.srs.active) s.ssq.height s.ssq.heightValid s.pvw.peers

/-- The reference at this moment (R51). -/
def currentReference (s : State) : RefAnswer :=
  referenceOf (nodeNeighbours s) (nodeHeights s) s.ssq.height s.ssq.heightValid

/-- The reference given on request: none where the basis would be self or none (R62). -/
def requestedReference (s : State) : Option Int :=
  match (currentReference s).basis with
  | .self => none
  | .noBasis => none
  | _ => (currentReference s).href

/-! ### The form (R50) -/

/-- The form of the computation (R50). -/
def formOf (mode : Mode) (valid creepOk : Bool) : Form :=
  match mode, valid with
  | .setup, _ => .noForm
  | _, false => .noForm
  | .climb, true => .level
  | .hold, true => if creepOk then .creep else .hold
  | .safe, true => .reference

/-- The form makes the spread check (R52). -/
def checksSpread : Form → Bool
  | .noForm => false
  | _ => true

/-- The form carries out the caps and the floor (R50). -/
def computesCaps : Form → Bool
  | .level => true
  | .creep => true
  | .hold => true
  | _ => false

/-! ### The stages (R52 to R58) -/

/-- The spread exceeds Ea (R52). -/
def spreadTooWide (href own ea : Int) : Bool := decide (ea < (href - own).natAbs)

/-- The target Ht (R53). -/
def targetHeight (href trim : Int) : Int := clamp 0 maxHeight (href + 5 * trim)

/-- The level error E (R53). -/
def levelError (href trim own ea : Int) : Int := clamp (-ea) ea (targetHeight href trim - own)

/-- The level stroke Slvl (R54). -/
def levelStroke (pnom kp e : Int) : Int := pnom + Int.tdiv (kp * e) 16

/-- Cmax (R49): Smax, or the calibrated full stroke less 10 where that is smaller. -/
def capMax (c : Settings) : Int :=
  match c.fullStroke with
  | some m => min c.smax (m - 10)
  | none => c.smax

/-- Cfill (R55). -/
def capFill (top own fmin : Int) : Int := max 0 ((top - own) - fmin)

/-- Clead (R55). -/
def capLead (hmin own lead : Int) : Int := max 0 (hmin + lead - own)

/-- Scap, the least of the caps, an absent Crel taking no part (R55). -/
def combinedCap (cmax cfill : Int) (crelease : Option Int) (clead : Int) : Int :=
  match crelease with
  | some r => min cmax (min cfill (min r clead))
  | none => min cmax (min cfill clead)

/-- The dead band (R57). -/
def deadBand (smin s2 : Int) : Int := if s2 < smin then 0 else s2

/-- What the caps and the floor give (R55, R56). -/
structure Caps where
  cmax : Int
  cfill : Int
  crelease : Option Int
  clead : Int
  scap : Int
  sfloor : Int
  deriving DecidableEq, Repr

/-- The caps and the floor as the blocks' state gives them now (R55, R56). Hmin is own height over no qualifying height, which
the forms that compute caps exclude (own height is then valid). -/
def capsOf (s : State) : Caps :=
  let own := s.ssq.height
  let c := s.srs.active
  let cmax := capMax c
  let cfill := capFill (ctop own s.lco) own c.fillMin
  let crelease := crel c.mRel own s.lco
  let clead := capLead ((minOf (nodeHeights s)).getD own) own c.lead
  { cmax := cmax, cfill := cfill, crelease := crelease, clead := clead,
    scap := combinedCap cmax cfill crelease clead,
    sfloor := if stick c.mStick s.lco then c.creepStroke else 0 }

/-- S2 of the LEVEL form (R56). -/
def combineLevel (slvl sfloor scap : Int) : Int := min (max slvl sfloor) scap

/-- S2 of the CREEP form (R58). -/
def combineCreep (stuck : Bool) (sc scap : Int) : Int := if stuck then min sc scap else 0

/-- The allowance of a form that reached the floor stage (R50, R57, R58). -/
def allowanceOf (form : Form) (s : State) (k : Caps) (slvl : Int) : Int :=
  match form with
  | .level => deadBand s.srs.active.smin (combineLevel slvl k.sfloor k.scap)
  | .creep =>
    deadBand s.srs.active.smin
      (combineCreep (stick s.srs.active.mStick s.lco) s.srs.active.creepStroke k.scap)
  | _ => 0

/-- The part of the record that every expiry that is not skipped writes first: the reference and the offset (R60). -/
def recordBase (form : Form) (s : State) : CplRecord :=
  { recordAtStart with
    minute := some s.lco.runClock
    form := form
    basis := (currentReference s).basis
    href := (currentReference s).href
    offset := if s.ssq.heightValid then (currentReference s).href.map (· - s.ssq.height) else none
    allowance := some 0 }

/-- The record of a form that reached the floor stage, for the reference `href` (R53 to R60). -/
def recordFull (form : Form) (s : State) (href : Int) : CplRecord :=
  let c := s.srs.active
  let e := levelError href s.cpl.trim s.ssq.height c.spreadAlarm
  let slvl := levelStroke c.nominalPace c.gain e
  let k := capsOf s
  { recordBase form s with
    spreadExceeded := some false
    error := if form = .level then some e else none
    slvl := if form = .level then some slvl else none
    cmax := some k.cmax
    cfill := some k.cfill
    crel := k.crelease
    clead := some k.clead
    scap := some k.scap
    sfloor := some k.sfloor
    allowance := some (allowanceOf form s k slvl)
    bind := decide (k.scap < k.sfloor) }

/-- The form of the expiry taken now (R50). -/
def currentForm (s : State) : Form := formOf (modeOf s.mct) s.ssq.heightValid (creepPermitted s.mct)

/-- The result of the spread check of this expiry: absent where none is made (R52). -/
def currentSpread (s : State) : Option Bool :=
  if checksSpread (currentForm s) then
    (currentReference s).href.map fun h => spreadTooWide h s.ssq.height s.srs.active.spreadAlarm
  else none

/-- The last-computation record an expiry that is not skipped writes (R60). -/
def currentRecord (s : State) : CplRecord :=
  match currentSpread s, (currentReference s).href with
  | some false, some h =>
    if computesCaps (currentForm s) then recordFull (currentForm s) s h
    else { recordBase (currentForm s) s with spreadExceeded := some false }
  | x, _ => { recordBase (currentForm s) s with spreadExceeded := x }

end Sys2Proof.Machine
end

