-- ==== Sys2Proof/Machine/Scan.lean ====
section
/-! DEFINITION. MSQ's conversions, triggers and sample sets (chapter 6). Every function here acts on MSQ's own state alone; the
announcements to the other blocks are in Machine/Stroke.lean. -/

namespace Sys2Proof.Machine

/-- The channel after this one in the scan (R116). -/
def nextChannel : Channel → Channel
  | .j1 => .j2
  | .j2 => .j3
  | .j3 => .j4
  | .j4 => .pres
  | .pres => .fill
  | .fill => .t1
  | .t1 => .t2
  | .t2 => .t3
  | .t3 => .t4
  | .t4 => .beam
  | .beam => .j1

/-- An entry of the result table. -/
def entryOf (t : ChanTable) : Channel → ChanEntry
  | .j1 => t.j1
  | .j2 => t.j2
  | .j3 => t.j3
  | .j4 => t.j4
  | .pres => t.pres
  | .fill => t.fill
  | .t1 => t.t1
  | .t2 => t.t2
  | .t3 => t.t3
  | .t4 => t.t4
  | .beam => t.beam

/-- The result table with one entry written. -/
def setEntry (t : ChanTable) (c : Channel) (e : ChanEntry) : ChanTable :=
  match c with
  | .j1 => { t with j1 := e }
  | .j2 => { t with j2 := e }
  | .j3 => { t with j3 := e }
  | .j4 => { t with j4 := e }
  | .pres => { t with pres := e }
  | .fill => { t with fill := e }
  | .t1 => { t with t1 := e }
  | .t2 => { t with t2 := e }
  | .t3 => { t with t3 := e }
  | .t4 => { t with t4 := e }
  | .beam => { t with beam := e }

/-- The channel's type has the lower low limit: the jacks and PRES (R118). -/
def isJackOrPres : Channel → Bool
  | .j1 => true
  | .j2 => true
  | .j3 => true
  | .j4 => true
  | .pres => true
  | _ => false

/-- The channel is one of the jacks. -/
def isJack : Channel → Bool
  | .j1 => true
  | .j2 => true
  | .j3 => true
  | .j4 => true
  | _ => false

/-- The low limit of a channel's type: a raw reading below it is out of range (R118). -/
def lowLimit (c : Channel) : Nat := if isJackOrPres c then 16 else 82

/-- A raw reading is in range (R118). -/
def rawInRange (c : Channel) (raw : Nat) : Bool := decide (lowLimit c ≤ raw ∧ raw ≤ 4013)

/-- Offset and span of a channel's type (R117). -/
def scaleOf : Channel → Int × Int
  | .j1 => (0, 600)
  | .j2 => (0, 600)
  | .j3 => (0, 600)
  | .j4 => (0, 600)
  | .pres => (0, 4000)
  | .fill => (0, 15000)
  | .t1 => (-400, 1200)
  | .t2 => (-400, 1200)
  | .t3 => (-400, 1200)
  | .t4 => (-400, 1200)
  | .beam => (-500, 1000)

/-- The value of an in-range raw reading (R117). -/
def scaledValue (c : Channel) (raw : Nat) : Int := (scaleOf c).1 + (raw * (scaleOf c).2) / 4096

/-- An entry after an in-range conversion of value `v` (R119, R120). -/
def entryIn (v : Int) (e : ChanEntry) : ChanEntry :=
  match e.state with
  | .faulted =>
    if e.goodCount + 1 < 3 then { e with goodCount := e.goodCount + 1, fresh := false }
    else { value := some v, state := .good, fresh := true, outCount := 0, goodCount := 0 }
  | _ => { value := some v, state := .good, fresh := true, outCount := 0, goodCount := 0 }

/-- An entry after an out-of-range conversion (R119, R120). -/
def entryOut (e : ChanEntry) : ChanEntry :=
  match e.state with
  | .faulted => { e with goodCount := 0, fresh := false }
  | _ =>
    if e.outCount + 1 < 3 then { e with outCount := e.outCount + 1, fresh := false }
    else { e with state := .faulted, outCount := 3, goodCount := 0, fresh := false }

/-- An entry after a conversion of its channel (R119 to R121): a conversion of BEAM while it is ABSENT is discarded. -/
def entryAfter (c : Channel) (raw : Nat) (e : ChanEntry) : ChanEntry :=
  if c = .beam ∧ e.state = .absent then e
  else if rawInRange c raw then entryIn (scaledValue c raw) e
  else entryOut e

/-- The conversion announces a good result: it was in range and the state after it is GOOD (R120). -/
def announcesGood (c : Channel) (raw : Nat) (e : ChanEntry) : Bool :=
  rawInRange c raw && decide (e.state ≠ .absent) && decide ((entryAfter c raw e).state = .good)

/-- The channels of a chain, in order (R122). -/
def chainOrder : List Channel := [.j1, .j2, .j3, .j4, .pres]

/-- The channel whose conversion is in flight: the chain's next, or the scan's (R116, R122). -/
def channelInFlight (m : Msq) : Channel :=
  match m.chain with
  | some c => (chainOrder[c.done.length]?).getD .pres
  | none => m.scan

/-- The element of a sample set for a chain's conversion (R123). -/
def sampleElem (c : Channel) (raw : Nat) (e : ChanEntry) : SampleElem :=
  { value := (entryAfter c raw e).value, good := announcesGood c raw e }

/-- An element of a substituted copy: the table's value, good when the state is GOOD (R126). -/
def copyElem (e : ChanEntry) : SampleElem := { value := e.value, good := isGood e }

/-- The copy of the latest values handed to SSQ at the loss of a trigger (R126). -/
def substituted (t : ChanTable) : Sample :=
  { j1 := copyElem t.j1, j2 := copyElem t.j2, j3 := copyElem t.j3, j4 := copyElem t.j4, pres := copyElem t.pres,
    substituted := true }

/-- The sample set of a completed chain (R123). -/
def sampleOf (elems : List SampleElem) : Sample :=
  { j1 := elems.getD 0 ⟨none, false⟩, j2 := elems.getD 1 ⟨none, false⟩, j3 := elems.getD 2 ⟨none, false⟩,
    j4 := elems.getD 3 ⟨none, false⟩, pres := elems.getD 4 ⟨none, false⟩, substituted := false }

/-- MSQ after a trigger (R122, R125, R126). -/
def triggerMsq (tag : Tag) (m : Msq) : Msq :=
  match m.chain, m.pendingTrigger with
  | none, _ => { m with chain := some { tag := tag, done := [] } }
  | some _, none => { m with pendingTrigger := some tag }
  | some _, some _ => { m with overrun := true }

/-- The sample a trigger hands to SSQ at once: the substituted copy, when the trigger is lost (R126). -/
def triggerLoss (m : Msq) : Option Sample :=
  match m.chain, m.pendingTrigger with
  | some _, some _ => some (substituted m.table)
  | _, _ => none

/-- The withdrawal of a pending START trigger (R127). -/
def withdrawStart (m : Msq) : Msq :=
  if m.pendingTrigger = some .start then { m with pendingTrigger := none } else m

/-- MSQ with the entry of the conversion in flight updated and the scan or the chain moved on by that conversion; the chain's
completion is taken after the announcements (R120, R122, R123, R124). A normal conversion of BEAM completes a pass of the scan
(R116). -/
def convertMsq (raw : Nat) (m : Msq) : Msq :=
  let c := channelInFlight m
  let e := entryOf m.table c
  let m1 := { m with table := setEntry m.table c (entryAfter c raw e) }
  match m.chain with
  | some ch => { m1 with chain := some { ch with done := ch.done ++ [sampleElem c raw e] } }
  | none => { m1 with scan := nextChannel m.scan, passDone := m.passDone || decide (m.scan = .beam) }

/-- The sample set to deliver, with its tag, when the chain in flight has all its five conversions (R123). -/
def chainDelivery (m : Msq) : Option (Tag × Sample) :=
  match m.chain with
  | some ch => if 5 ≤ ch.done.length then some (ch.tag, sampleOf ch.done) else none
  | none => none

/-- MSQ once a completed chain has been delivered: the pending trigger's chain starts, or the scan resumes with the restored
channel (R124, R125). -/
def chainCompleted (m : Msq) : Msq :=
  match m.pendingTrigger with
  | some tag => { m with chain := some { tag := tag, done := [] }, pendingTrigger := none }
  | none => { m with chain := none }

/-- MSQ after a change of the beam-present input (R121). -/
def beamChangedMsq (on : Bool) (m : Msq) : Msq :=
  { m with table := setEntry m.table .beam (if on then entryNotValid else entryAbsent) }

/-- The probe candidates of R14: the probes whose entry is GOOD, with their configured depths. -/
def probesOf (c : Settings) (t : ChanTable) : List Probe :=
  [(c.probe1, t.t1), (c.probe2, t.t2), (c.probe3, t.t3), (c.probe4, t.t4)].filterMap fun p =>
    if isGood p.2 then p.2.value.map fun v => (p.1, v) else none

end Sys2Proof.Machine
end

