-- ==== Sys2Proof/Machine/Ops.lean ====
section
/-! DEFINITION. The operations that cross blocks and that several commands share: requests to LIF, frame shifts, cuts, the chute
gate and the pour, the cause sets with the mode that follows from them, and the signals of the peer view. -/

namespace Sys2Proof.Machine

/-! ### Requests to LIF -/

/-- A request for an extra LEVEL post (R167). -/
def requestLevel (s : State) : State := s.setLif (wantLevelPost (ownStation s) s.lif)

/-- The GATE post FCT queues, with the gate state and the own need at open as they stand (R97); none at station 0 (R175). -/
def queueGate (yielded : Bool) (s : State) : State :=
  if ownStation s = 0 then s
  else
    s.setLif
      (queueGatePost { state := s.fct.gate, needAtOpen := s.fct.needAtOpen.getD 0, yielded := yielded } s.lif)

/-- MCT queues a HALT post (R143): none at station 0 or while IDENTITY_CLASH is in the SAFE set, and none of kind CLIMB while
one of kind ALL waits. -/
def queueHalt (p : HaltPost) (s : State) : State :=
  if ownStation s = 0 ∨ s.mct.safe.identityClash = true ∨
      (p.kind = .climb ∧ s.mct.queuedHalt.map HaltPost.kind = some .all) then s
  else (s.setLif (queueHaltPost p s.lif)).setMct { s.mct with queuedHalt := some p }

/-! ### Own height (R80, R81) -/

/-- The height-limit mark after a change of own height to `target` before its limit (R80). -/
def limitMark (target : Int) (mark : Bool) : Bool :=
  if maxHeight < target then true else if target < maxHeight then false else mark

/-- A frame shift that takes own height to `target`, limited to the height range, with the validity `valid` (R81): the signed
difference is handed to LCO, unless it is 0. -/
def frameShiftTo (target : Int) (valid : Bool) (s : State) : State :=
  let h := clamp 0 maxHeight target
  let d := h - s.ssq.height
  let s1 :=
    s.setSsq { s.ssq with height := h, heightValid := valid, heightLimit := limitMark target s.ssq.heightLimit }
  if d = 0 then s1 else s1.setLco (shiftColumn d h s1.lco)

/-! ### Cuts (R66, R78) -/

/-- The lift valve turned off: the enable withdrawn and 0% written in one action (R66). -/
def liftOff (q : Ssq) : Ssq := { q with liftEnable := false, dutyWritten := 0 }

/-- The time since `since`, no longer than the phase's own timeout allows (log entry 25). -/
def elapsedMs (now : Nat) (since : Option Nat) (limit : Nat) : Nat := min (now - since.getD now) limit

/-- The lift timeout in milliseconds (R70). -/
def liftTimeoutMs (c : Settings) : Nat := (c.liftTimeout * 1000).toNat

/-- The end of LIFT: lift duration recorded, lift valve off, TOPDWELL entered (R70). -/
def leaveLift (durationMs : Nat) (update : Stroke → Stroke) (q : Ssq) : Ssq :=
  { liftOff q with
    phase := .topdwell
    stroke := q.stroke.map fun st => update { st with liftDuration := some durationMs } }

/-- The end of PRESSURIZE without LIFT: the lift duration is 0 ms (R69). -/
def leavePressurize (update : Stroke → Stroke) (q : Ssq) : Ssq :=
  { liftOff q with
    phase := .topdwell
    stroke := q.stroke.map fun st => update { st with liftDuration := some 0 } }

/-- A stroke's rise end set. -/
def withRiseEnd (e : RiseEnd) (st : Stroke) : Stroke := { st with riseEnd := some e }

/-- A stroke fault added to the list (R76). -/
def withFault (f : StrokeFault) (st : Stroke) : Stroke := { st with faults := st.faults ++ [f] }

/-- The time since LIFT entry, as a lift duration. -/
def liftElapsed (s : State) : Nat :=
  elapsedMs s.nowMs (s.ssq.stroke.bind Stroke.liftEntry) (liftTimeoutMs s.srs.active)

/-- A cut request as SSQ takes it (R78). -/
def cutStroke (s : State) : State :=
  match s.ssq.phase with
  | .pressurize =>
    (s.setMsq (withdrawStart s.msq)).setSsq (leavePressurize (withRiseEnd .cut) s.ssq)
  | .lift => s.setSsq (leaveLift (liftElapsed s) (withRiseEnd .cut) s.ssq)
  | _ => s

/-! ### The gate and the pour (chapter 5) -/

/-- The pour state set. -/
def setPour (p : PourState) (s : State) : State := s.setFct { s.fct with pour := p }

/-- What follows each change of gate state: the GATE post and the extra LEVEL post (R97). -/
def gateChanged (yielded : Bool) (s : State) : State := requestLevel (queueGate yielded s)

/-- FCT's claim, made in WANT when K − O is 1 or more (R102). -/
def tryClaim (s : State) : State :=
  if 1 ≤ placesLeft s then
    let number := (s.fct.claimNumber + 1) % 256
    let need := bindNeed s.cpl.record.bind (fillGap s)
    (s.setLif (queueClaimPost { need := need, number := number } s.lif)).setFct
      { s.fct with
        claimNumber := number, ownClaim := some { need := need, number := number, sent := false }, pour := .claiming }
  else s

/-- The entry to WANT (R101, R102). -/
def enterWant (s : State) : State := tryClaim (setPour .want s)

/-- "WANT or DRY" (R101). -/
def wantOrDry (s : State) : State := if wantsConcrete s then enterWant s else setPour .dry s

/-- The test for WANT in DRY (R101). -/
def testDry (s : State) : State := if s.fct.pour = .dry ∧ wantsConcrete s = true then enterWant s else s

/-- The entry to BACKOFF with its length (R106). -/
def enterBackoff (length : Nat) (s : State) : State :=
  s.setFct { s.fct with pour := .backoff, ownClaim := none, backoffMs := 0, backoffLength := length }

/-- The gate enters CLOSED (R95, R97, R101, R111). -/
def enterClosed (s : State) : State :=
  let s1 := gateChanged false (s.setFct { s.fct with gate := .closed, motor := .off, needAtOpen := none })
  match s1.fct.pour with
  | .ending =>
    if s1.fct.yieldMark then
      enterBackoff (s1.fct.pendingBackoff.getD 0)
        (s1.setFct { s1.fct with yieldMark := false, pendingBackoff := none })
    else wantOrDry s1
  | .dry => testDry s1
  | _ => s1

/-- The gate enters CLOSING; a closed-limit input already on makes it CLOSED at once (R95). -/
def enterClosing (yielded : Bool) (s : State) : State :=
  let s1 := gateChanged yielded (s.setFct { s.fct with gate := .closing, motor := .closeDrive, travelMs := 0 })
  if s1.pins.gateClosedLimit then enterClosed s1 else s1

/-- The gate becomes OPEN (R94). -/
def enterOpened (s : State) : State := gateChanged false (s.setFct { s.fct with gate := .opened, motor := .off })

/-- The gate enters OPENING; an open-limit input already on makes it OPEN at once (R94). -/
def enterOpening (s : State) : State :=
  let s1 := gateChanged false (s.setFct { s.fct with gate := .opening, motor := .openDrive, travelMs := 0 })
  if s1.pins.gateOpenLimit then enterOpened s1 else s1

/-- The pour ends for a reason (R109). -/
def endPour (reason : EndReason) (s : State) : State :=
  let s1 := setPour .ending s
  let s2 :=
    if s1.fct.gate = .opening ∨ s1.fct.gate = .opened then enterClosing (decide (reason = .yielded)) s1 else s1
  s2.setLco (endLayer s2.ssq.height s2.srs.active.lMin reason s2.lco)

/-- The pour opens with this need at open (R107). -/
def openPour (need : Int) (s : State) : State :=
  let s1 := enterOpening (s.setFct { s.fct with needAtOpen := some need })
  let s2 := s1.setFct { s1.fct with ownClaim := none, pour := .pouring, pourSeconds := 0 }
  s2.setLco (openLayer s2.ssq.height s2.lco)

/-- The claim abandoned: a claim not yet sent is withdrawn at LIF (R100, R103). -/
def abandonClaim (s : State) : State :=
  match s.fct.ownClaim with
  | some c =>
    let s1 := if c.sent then s else s.setLif (withdrawClaimPost s.lif)
    s1.setFct { s1.fct with ownClaim := none, pour := .dry }
  | none => setPour .dry s

/-- The beginning of the pour block (R100). -/
def beginBlock (s : State) : State :=
  match s.fct.pour with
  | .dry => s
  | .want => setPour .dry s
  | .claiming => abandonClaim s
  | .backoff => setPour .dry s
  | .pouring => endPour .blocked s
  | .ending => s

/-- A reporter has told FCT of a change of its condition: the block begins at the first to arise and ends when the last one
clears (R99, R100). -/
def reportBlock (s : State) : State :=
  if pourBlocked s = s.fct.blocked then s
  else
    let s1 := s.setFct { s.fct with blocked := pourBlocked s }
    if pourBlocked s then beginBlock s1 else testDry s1

/-- The yield test (R110). -/
def yieldTest (s : State) : State :=
  let own := ownStation s
  let need := s.fct.needAtOpen.getD 0
  let rank := gateRank own need s.pvw.peers
  let allowed : Int := s.srs.active.gateLimit - closingCount s.pvw.peers
  if s.srs.active.gateLimit < pumpGates s.pvw.peers ∧ allowed < rank then
    endPour .yielded
      (s.setFct
        { s.fct with yieldMark := true, pendingBackoff := some (2000 + 250 * (rank - max 0 allowed)).toNat })
  else s

/-- PVW's signals to FCT: a table change and a gate-count change (R44, R102, R108). -/
def signalFeed (tableChanged countChanged : Bool) (s : State) : State :=
  let s1 := if tableChanged = true ∧ s.fct.pour = .pouring then yieldTest s else s
  if countChanged = true ∧ s1.fct.pour = .want then tryClaim s1 else s1

/-- The bind mark becoming set while POURING raises the own need at open (R108). -/
def raiseBindNeed (s : State) : State :=
  if s.cpl.record.bind = true ∧ s.fct.pour = .pouring ∧ s.fct.needAtOpen.getD 0 < 15000 then
    queueGate false (s.setFct { s.fct with needAtOpen := some 15000 })
  else s

/-! ### The cause sets and the mode (chapter 7) -/

/-- The settling mark is set between two states of MCT (R140); `busy`: SSQ is not IDLE. -/
def settlesNow (busy : Bool) (before after : Mct) : Bool :=
  busy &&
    (decide (modeOf before = .climb ∧ (modeOf after = .hold ∨ modeOf after = .safe)) ||
      decide (modeOf before ≠ .safe ∧ modeOf after = .safe) || (creepPermitted before && !creepPermitted after))

/-- What follows a change in the base or in a cause set, from MCT's state `before` it: the extra LEVEL post and the end of
amend mode at a change of mode (R135), the settling mark (R140), and the report to FCT (R136). -/
def afterCauses (before : Mct) (s : State) : State :=
  let changed := decide (modeOf before ≠ modeOf s.mct)
  let s1 := if changed then requestLevel s else s
  let s2 := if changed = true ∧ modeOf s1.mct = .climb then s1.setOrs { s1.ors with amend := false } else s1
  let s3 :=
    if settlesNow (decide (s2.ssq.phase ≠ .idle)) before s2.mct then s2.setMct { s2.mct with settling := true } else s2
  reportBlock s3

/-- A hold cause arrives (R136); a cut cause cuts the stroke in the same event (R138). -/
def addHold (c : HoldCause) (s : State) : State :=
  let s1 := s.setMct { s.mct with hold := holdPut s.mct.hold c true }
  let s2 := if isCutCause c then cutStroke s1 else s1
  afterCauses s.mct s2

/-- A hold cause is removed by its owner (R136). -/
def removeHold (c : HoldCause) (s : State) : State :=
  afterCauses s.mct (s.setMct { s.mct with hold := holdPut s.mct.hold c false })

/-- The HALT post of a SAFE entry (R141, R143). -/
def haltForEntry (c : SafeCause) (s : State) : State :=
  match haltReasonOf c with
  | some reason => queueHalt { kind := .climb, reason := reason } s
  | none => s

/-- A SAFE cause is added (R137); the first one makes the SAFE entry (R141). -/
def addSafe (c : SafeCause) (s : State) : State :=
  if safeHas s.mct.safe c then s
  else
    let s1 := s.setMct { s.mct with safe := safePut s.mct.safe c true }
    if s.mct.safe = noSafe then haltForEntry c (afterCauses s.mct (cutStroke s1)) else s1

/-- MCT after its SAFE set has become `f`: emptied with the base RUNNING, OPERATOR is added (R142). -/
def mctWithSafe (f : SafeSet) (m : Mct) : Mct :=
  { m with
    safe := f
    restored := if f.restored then m.restored else none
    hold := if f = noSafe ∧ m.safe ≠ noSafe ∧ m.base = .running then holdPut m.hold .operator true else m.hold }

/-- Causes leave the SAFE set, which becomes `f` (R137, R142). -/
def reduceSafe (f : SafeSet) (s : State) : State :=
  if f = s.mct.safe then s else afterCauses s.mct (s.setMct (mctWithSafe f s.mct))

/-- A SAFE cause is removed by its own block (R137). -/
def removeSafe (c : SafeCause) (s : State) : State := reduceSafe (safePut s.mct.safe c false) s

/-! ### The peer view's conditions (R39, R40) -/

/-- The sector-clash condition tested (R39). -/
def retestClash (s : State) : State :=
  let now := sectorClashes (ownStation s) (sectorOf s.srs.active) s.pvw.peers
  if now = s.pvw.sectorClash then s
  else
    let s1 := s.setPvw { s.pvw with sectorClash := now }
    if now then addSafe .sectorClash s1 else removeSafe .sectorClash s1

/-- An identity clash (R40, R173). -/
def identityClash (s : State) : State :=
  let s1 := s.setPvw { s.pvw with identityClash := true }
  let s2 := addSafe .identityClash s1
  s2.setLif { s2.lif with silent := true }

/-! ### Writes of the stored block (R195) -/

/-- A write of the stored block begins: until its end the stored block is neither the old block nor the new one (R195). -/
def beginWrite (w : BlockWrite) (r : Srs) : Srs := { r with write := some w, stored := none }

/-- A write of the stored block asked for: it begins at once, or waits for the one in progress (R195). -/
def askWrite (w : BlockWrite) (r : Srs) : Srs :=
  match r.write with
  | none => beginWrite w r
  | some _ => { r with writesWaiting := r.writesWaiting ++ [w] }

/-! ### Replies and the waiting RESTART (R177, R188, R201) -/

/-- A REPLY queued at LIF (R177). -/
def sendReply (sender : Nat) (code : Byte) (r : Result) (data : List Byte) (s : State) : State :=
  s.setLif (queueReplyPost (replyPayload sender code r data) s.lif)

/-- The commanded restart begins once the waiting RESTART's reply has been dealt with and no write is in progress
(R188, R201): SRS stops the node, its start begins, and ORS's restart-waiting mark ends (R176). DEDUCED (log entry 44): where the
reply has been dealt with and a write is still in progress, the stop waits with the start, and LIF goes on running until the write is
done. -/
def tryRestart (s : State) : State :=
  if s.ors.restartWaiting = true ∧ s.srs.restartReady = true ∧ s.srs.write = none then
    (s.setSrs { s.srs with life := .restarting }).setOrs { s.ors with restartWaiting := false }
  else s

/-- LIF has reported a REPLY sent or discarded (R178, R188): where a RESTART waits and no REPLY is left, it was the RESTART's. -/
def replyReported (s : State) : State :=
  if s.ors.restartWaiting = true ∧ s.lif.replySlot = none ∧ transmitting s.lif 6 = false then
    tryRestart (s.setSrs { s.srs with restartReady := true })
  else s

end Sys2Proof.Machine
end

