-- ==== Sys2Proof/Machine/Stroke.lean ====
section
/-! DEFINITION. The stroke as SSQ runs it (chapter 4), the announcements MSQ makes of a conversion (R120, R130) and the outcome of
the calibration stroke (R197). -/

namespace Sys2Proof.Machine

/-! ### Travels and the climbed distance (R75, R88, R90) -/

/-- The jack elements of a sample set, J1 first. -/
def jacksOf (p : Sample) : List SampleElem := [p.j1, p.j2, p.j3, p.j4]

/-- The jack entries of the result table as sample elements: good when the state is GOOD. -/
def jacksNow (t : ChanTable) : List SampleElem := (jackEntries t).map copyElem

/-- The difference of two elements that are both good. -/
def elemTravel (a b : SampleElem) : Option Int :=
  if a.good && b.good then
    match a.value, b.value with
    | some x, some y => some (y - x)
    | _, _ => none
  else none

/-- The travels of the jacks that are good in both sets. -/
def travelsBetween (a b : List SampleElem) : List Int := (List.zipWith elemTravel a b).filterMap id

/-- An element kept when it is good in a third set as well. -/
def alsoGood (a e : SampleElem) : SampleElem := { a with good := a.good && e.good }

/-- floor(Σ / n), a negative sum counting as 0 (R75, R90). Over no jack it is 0, the model's choice where R90 asks for it (log entry
37); R75 says the ΔH of no jack itself. -/
def meanTravel (travels : List Int) : Int := if travels.isEmpty then 0 else max 0 travels.sum / travels.length

/-- ΔH from the travels of the jacks that take part (R75). -/
def climbOf (takeUp : Int) (travels : List Int) : Int := if travels.isEmpty then 0 else max 0 (meanTravel travels - takeUp)

/-- The travels that take part in ΔH: of the jacks good in the START, TOP and END samples (R75); none without one of them. -/
def climbTravels (st : Stroke) : List Int :=
  match st.startSample, st.topSample, st.endSample with
  | some a, some b, some e => travelsBetween (List.zipWith alsoGood (jacksOf a) (jacksOf e)) (jacksOf b)
  | _, _, _ => []

/-- The climbed distance ΔH (R75). -/
def climbedDistance (takeUp : Int) (st : Stroke) : Int := climbOf takeUp (climbTravels st)

/-- The travels of the jacks good in both the START and TOP samples (R88). -/
def fullTravels (st : Stroke) : List Int :=
  match st.startSample, st.topSample with
  | some a, some b => travelsBetween (jacksOf a) (jacksOf b)
  | _, _ => []

/-- The measured full stroke of a calibration stroke that succeeds; none of one that fails (R88). -/
def calibratedStroke (st : Stroke) : Option Int :=
  let travels := fullTravels st
  let m := travels.sum / travels.length
  if st.riseEnd = some .full ∧ st.faults = [] ∧ 3 ≤ travels.length ∧ 100 ≤ m ∧ m ≤ 600 then some m else none

/-- The extension at save (R90). Once the TOP sample has been delivered, the jacks are those good in the START and TOP samples, the
model's reading of "the same figure with Jtop in place of Ji" (log entry 33). -/
def extensionAtSave (phase : Phase) (t : ChanTable) (st : Stroke) : Int :=
  match st.startSample with
  | none => 0
  | some a =>
    match phase, st.topSample with
    | .pressurize, _ => meanTravel (travelsBetween (jacksOf a) (jacksNow t))
    | .lift, _ => meanTravel (travelsBetween (jacksOf a) (jacksNow t))
    | _, some b => meanTravel (travelsBetween (jacksOf a) (jacksOf b))
    | _, none => meanTravel (travelsBetween (jacksOf a) (jacksNow t))

/-! ### The laser (R82, R83) -/

/-- Hlas, when the four conditions of R82 hold. -/
def laserHeight (s : State) : Option Int :=
  match s.ssq.plane, s.msq.table.beam.value with
  | some plane, some b =>
    if s.pins.beamPresent ∧ s.msq.table.beam.state = .good ∧ -480 ≤ b ∧ b ≤ 480 then
      some (clamp 0 maxHeight (plane - s.srs.active.receiverOffset - b))
    else none
  | _, _ => none

/-- The correction C = truncate(X/4) that is applied now: none where a condition fails or |X| is above 1,000 (R82). -/
def laserStep (s : State) : Option Int :=
  (laserHeight s).bind fun h =>
    if (h - s.ssq.height).natAbs ≤ 1000 then some (Int.tdiv (h - s.ssq.height) 4) else none

/-- The laser correction (R82). -/
def laserCorrect (s : State) : State :=
  match laserHeight s with
  | none => s
  | some _ =>
    match laserStep s with
    | some c =>
      let s1 := frameShiftTo (s.ssq.height + c) true s
      s1.setSsq { s1.ssq with laserDisagree := false }
    | none => s.setSsq { s.ssq with laserDisagree := true }

/-- The laser adoption (R83). -/
def laserAdopt (s : State) : State :=
  match laserHeight s with
  | some h => frameShiftTo h true s
  | none => s

/-- A null cycle (R83). -/
def nullCycle (s : State) : State := if s.ssq.heightValid then laserCorrect s else laserAdopt s

/-! ### The completion of SETTLE (R74 to R77, R86, R197) -/

/-- The end cause a fault gives (R76). -/
def faultCause : StrokeFault → EndCause
  | .noPressure => .noPressure
  | .stall => .stall
  | .skew => .skew
  | .transducer => .transducer
  | .noReturn => .noReturn

/-- The end cause a rise end gives (R76). A stroke with no fault always has a rise end (log entry 24). -/
def riseCause : Option RiseEnd → EndCause
  | some .target => .target
  | some .full => .full
  | some .cut => .cut
  | none => .cut

/-- A stroke's end cause (R76, R88). -/
def endCauseOf (st : Stroke) : EndCause :=
  if st.kind = .calibration ∧ (calibratedStroke st).isSome then .calibration
  else
    match st.faults with
    | f :: _ => faultCause f
    | [] => riseCause st.riseEnd

/-- Any of the three samples is substituted (R86). -/
def anySubstituted (st : Stroke) : Bool :=
  [st.startSample, st.topSample, st.endSample].any fun p => (p.map Sample.substituted).getD false

/-- The history with a record joined at the newest end (R86). -/
def joinHistory (r : HistoryRec) (h : List HistoryRec) : List HistoryRec := (r :: h).take 8

/-- The history record of a completed stroke (R86). -/
def strokeRecord (number : Nat) (climbed : Int) (st : Stroke) : HistoryRec :=
  { number := number, allowance := st.allowance, climbed := climbed, liftMs := st.liftDuration.getD 0,
    releaseMs := st.releaseDuration.getD 0, cause := endCauseOf st, creep := decide (st.kind = .creep),
    substituted := anySubstituted st, laser := st.laser }

/-- Own height raised by a climb and the climb reported to LCO (R10, R75, R80). -/
def climbBy (d : Int) (s : State) : State :=
  let target := s.ssq.height + d
  let s1 :=
    s.setSsq
      { s.ssq with height := min maxHeight target, heightLimit := limitMark target s.ssq.heightLimit }
  s1.setLco (releasePass s1.ssq.height s1.lco)

/-- The window with a report joined (R77). -/
def joinWindow (faults : Nat) (w : List Nat) : List Nat := (faults :: w).take 10

/-- A report to the stroke-fault window (R77). -/
def reportFaults (faults : Nat) (s : State) : State :=
  let s1 := s.setMct { s.mct with window := joinWindow faults s.mct.window }
  if 2 ≤ s1.mct.window.sum then addSafe .strokeRepeat s1 else s1

/-- A setting block with the three changes of a successful calibration (R197). -/
def calibratedBlock (m : Int) (c : Settings) : Settings :=
  { c with fullStroke := some m, calibrateNext := 0, smax := min c.smax (m - 10) }

/-- What SRS does at a successful calibration (R197). The block written has the values loaded at this start, which the active
settings still hold (log entry 21). -/
def calibrationSuccess (m : Int) (r : Srs) : Srs :=
  let r1 :=
    { r with
      active := { r.active with fullStroke := some m }
      calibrationPending := false
      staged := calibratedBlock m r.staged }
  if r.loadResult = .good then askWrite { block := calibratedBlock m r.active, forStore := false } r1 else r1

/-- The outcome of a calibration stroke at SRS: its result, and the end of the start sequence's wait for it (R196, R197). -/
def calibrationOutcome (st : Stroke) (r : Srs) : Srs :=
  let r1 :=
    match calibratedStroke st with
    | some m => calibrationSuccess m r
    | none => r
  if r1.step = .calibrating then { r1 with step := .joinListen, joinMs := 0 } else r1

/-- SSQ reports the stroke's outcome to its requester (R74, step 5). -/
def reportOutcome (st : Stroke) (s : State) : State :=
  if st.kind = .calibration then s.setSrs (calibrationOutcome st s.srs) else reportFaults st.faults.length s

/-- The laser correction of a SETTLE completion, in a stroke's record (R74, step 3; log entry 15). -/
def settleLaser (st : Stroke) (s : State) : Stroke × State :=
  if s.ssq.heightValid then ({ st with laser := laserStep s }, laserCorrect s) else (st, s)

/-- The completion of SETTLE (R74). -/
def completeSettle (st : Stroke) (s : State) : State :=
  let climbed := climbedDistance s.srs.active.takeUp st
  let s1 := climbBy climbed s
  let p := settleLaser st s1
  let number := (p.2.ssq.strokeCount + 1) % 256
  let s2 := p.2.setSsq { p.2.ssq with strokeCount := number }
  let s3 := reportOutcome p.1 s2
  let s4 := s3.setSsq { s3.ssq with history := joinHistory (strokeRecord number climbed p.1) s3.ssq.history }
  let s5 := requestLevel s4
  (s5.setSsq { s5.ssq with stroke := none, phase := .idle }).setMct { s5.mct with settling := false }

/-! ### Triggers and samples (R122 to R126) -/

/-- A sample stored under its tag (R72, R123). -/
def storeSample (tag : Tag) (p : Sample) (st : Stroke) : Stroke :=
  match tag with
  | .start => { st with startSample := some p }
  | .top => { st with topSample := some p }
  | .finish => { st with endSample := some p }

/-- A sample set delivered to SSQ: stored under its tag in the stroke in flight, whatever the phase; the END sample completes SETTLE
(R72, R74, R123). With no stroke in flight the set is dropped, the model's choice (log entry 35). -/
def deliverSample (tag : Tag) (p : Sample) (s : State) : State :=
  match s.ssq.stroke with
  | none => s
  | some st =>
    let s1 := s.setSsq { s.ssq with stroke := some (storeSample tag p st) }
    if tag = .finish ∧ s.ssq.phase = .settle then completeSettle (storeSample tag p st) s1 else s1

/-- An injected trigger (R122, R125, R126). -/
def fireTrigger (tag : Tag) (s : State) : State :=
  let s1 := s.setMsq (triggerMsq tag s.msq)
  match triggerLoss s.msq with
  | some p => deliverSample tag p s1
  | none => s1

/-! ### The phases (R65, R69 to R73) -/

/-- A stroke in flight with every field but its kind and allowance absent (R65). -/
def newStroke (kind : StrokeKind) (allowance : Option Int) : Stroke :=
  { kind := kind, allowance := allowance, startSample := none, topSample := none, endSample := none, liftEntry := none,
    liftDuration := none, releaseEntry := none, releaseDuration := none, riseEnd := none, faults := [], laser := none,
    topFired := false }

/-- A stroke starts and PRESSURIZE is entered (R65, R69, R88). -/
def startStroke (kind : StrokeKind) (allowance : Option Int) (s : State) : State :=
  fireTrigger .start
    (s.setSsq
      { s.ssq with
        phase := .pressurize, stroke := some (newStroke kind allowance), liftEnable := true, dutyWritten := 40 })

/-- The travels of the transducers that are good in LIFT (R70). -/
def liftTravels (a : Sample) (t : ChanTable) : List Int := travelsBetween (jacksOf a) (jacksNow t)

/-- The largest of some travels less the smallest. -/
def skewOf (travels : List Int) : Int :=
  match travels with
  | [] => 0
  | x :: xs => xs.foldl max x - xs.foldl min x

/-- The target travel has been reached (R70); never by a calibration stroke (R88). -/
def targetReached (overrun : Int) (st : Stroke) (travels : List Int) : Bool :=
  match st.allowance with
  | some allowance => decide (max 0 (allowance - overrun) ≤ travels.sum / travels.length)
  | none => false

/-- How the tests of R70 change the stroke that ends LIFT; none while none of them applies. -/
def liftEnd (c : Settings) (st : Stroke) (travels : List Int) : Option (Stroke → Stroke) :=
  if travels.length < 3 then some (withFault .transducer)
  else if c.skewLimit < skewOf travels then some (withFault .skew)
  else if targetReached c.valveOverrun st travels then some (withRiseEnd .target)
  else none

/-- The tests of LIFT (R70). They are not made before the START sample has been delivered. -/
def liftTest (s : State) : State :=
  match s.ssq.phase, s.ssq.stroke with
  | .lift, some st =>
    match st.startSample with
    | some a =>
      match liftEnd s.srs.active st (liftTravels a s.msq.table) with
      | some update => s.setSsq (leaveLift (liftElapsed s) update s.ssq)
      | none => s
    | none => s
  | _, _ => s

/-- The entry to LIFT (R69), with the test made there (R70). -/
def enterLift (s : State) : State :=
  liftTest
    (s.setSsq
      { s.ssq with
        phase := .lift
        dutyWritten := if s.ssq.dutyInForce = 100 then s.ssq.dutyWritten else 100
        stroke := s.ssq.stroke.map fun st => { st with liftEntry := some s.nowMs } })

/-- The entry to SETTLE (R73, R74). -/
def enterSettle (update : Stroke → Stroke) (s : State) : State :=
  fireTrigger .finish
    (s.setSsq { s.ssq with phase := .settle, releaseOn := false, stroke := s.ssq.stroke.map update })

/-- Every good jack channel reads 30 tenths or less (R73). -/
def jacksRetracted (t : ChanTable) : Bool :=
  (jackEntries t).all fun e => !isGood e || (e.value.map fun v => decide (v ≤ 30)).getD true

/-- The jacks are home (R73). -/
def jacksHome (pRest : Int) (t : ChanTable) : Bool :=
  match t.pres.state, t.pres.value with
  | .good, some v => decide (v ≤ pRest) && jacksRetracted t
  | .faulted, _ => (jackEntries t).any isGood && jacksRetracted t
  | _, _ => false

/-- The release duration recorded. -/
def withRelease (ms : Nat) (st : Stroke) : Stroke := { st with releaseDuration := some ms }

/-- The test of the return condition in RELEASE (R73). -/
def releaseTest (s : State) : State :=
  if s.ssq.phase = .release ∧ jacksHome s.srs.active.pRest s.msq.table = true then
    enterSettle (withRelease (elapsedMs s.nowMs (s.ssq.stroke.bind Stroke.releaseEntry) 5000)) s
  else s

/-- What SSQ tests at a J result and at a change of a J channel's state (R70, R73): only the phase in force is tested. -/
def jackTest (s : State) : State :=
  match s.ssq.phase with
  | .lift => liftTest s
  | .release => releaseTest s
  | _ => s

/-- The overpressure condition at a good PRES result (R79). -/
def overpressureTest (v : Int) (s : State) : State :=
  if s.srs.active.pOver < v then addSafe .overpressure (s.setSsq { s.ssq with overpressure := true })
  else s.setSsq { s.ssq with overpressure := false }

/-- The phase's own test of a good PRES result (R69, R73). -/
def pressurePhase (v : Int) (s : State) : State :=
  match s.ssq.phase with
  | .pressurize => if s.srs.active.pLift ≤ v then enterLift s else s
  | .release => releaseTest s
  | _ => s

/-- A good PRES result at SSQ (R69, R73, R79; the phase's own test first, log entry 19). -/
def pressureResult (v : Int) (s : State) : State := overpressureTest v (pressurePhase v s)

/-- A good FILL result at FCT (R101, R108, R109). -/
def fillTest (s : State) : State :=
  match s.fct.pour with
  | .dry => testDry s
  | .want => if fillGap s < s.srs.active.gReq then setPour .dry s else s
  | .pouring => if fillGap s ≤ s.srs.active.gFull then endPour .fillReached s else s
  | _ => s

/-- A good FILL result: LCO before FCT (R130). -/
def fillResult (v : Int) (s : State) : State :=
  fillTest (s.setLco (fillReading s.ssq.height s.srs.active.formHeight v s.lco))

/-- The test of the sense condition (R129). -/
def senseTest (s : State) : State :=
  let on := senseHolds s.msq.table
  if on = s.msq.sense then s
  else
    let s1 := s.setMsq { s.msq with sense := on }
    if on then addHold .sense s1 else removeHold .sense s1

/-- A good result announced to the blocks that follow the channel (R130). -/
def announceResult (c : Channel) (v : Int) (s : State) : State :=
  match c with
  | .j1 => jackTest s
  | .j2 => jackTest s
  | .j3 => jackTest s
  | .j4 => jackTest s
  | .pres => pressureResult v s
  | .fill => fillResult v s
  | _ => s

/-- A state change announced to the blocks that follow the channel (R130): SSQ, then the sense condition; FCT for FILL. -/
def announceChange (c : Channel) (s : State) : State :=
  match c with
  | .j1 => senseTest (jackTest s)
  | .j2 => senseTest (jackTest s)
  | .j3 => senseTest (jackTest s)
  | .j4 => senseTest (jackTest s)
  | .pres => senseTest (releaseTest s)
  | .fill => reportBlock s
  | _ => s

/-- The announcements of a completed conversion whose entry was `before` (R120). -/
def announce (c : Channel) (raw : Nat) (before : ChanEntry) (s : State) : State :=
  let s1 := if announcesGood c raw before then announceResult c (scaledValue c raw) s else s
  if (entryAfter c raw before).state ≠ before.state then announceChange c s1 else s1

/-- The completion of the chain in flight, where its fifth conversion has been made (R123 to R125). -/
def finishChain (s : State) : State :=
  match chainDelivery s.msq with
  | some (tag, p) =>
    let s1 := deliverSample tag p s
    s1.setMsq (chainCompleted s1.msq)
  | none => s

/-- A completed conversion (R120, R123). -/
def completeConversion (raw : Nat) (s : State) : State :=
  let c := channelInFlight s.msq
  let before := entryOf s.msq.table c
  finishChain (announce c raw before (s.setMsq (convertMsq raw s.msq)))

end Sys2Proof.Machine
end

