-- ==== Sys2Proof/Machine/Orders.lean ====
section
/-! DEFINITION. How ORS takes an ORDER post and answers it (R177, R178), shared by the meanings of all orders. -/

namespace Sys2Proof.Machine

/-- What an order's own rule makes of it: the state after it and the reply's result with its data; no reply for the STORE that is
taken, whose reply waits for the write (R187). -/
structure Answer where
  state : State
  reply : Option (Result × List Byte)

/-- The mode, hold set, SAFE set and gate state of a reply to CLIMB, HOLD, SETUP or CLEAR (R159, R180). -/
def modeData (s : State) : List Byte :=
  [byteOf (modeCode (modeOf s.mct)), byteOf (holdCode s.mct.hold), byteOf (safeCode s.mct.safe),
    byteOf (gateCode s.fct.gate)]

/-- The data R159 lists for a REFUSED reply by the order's code: the mode data for CLIMB, HOLD, SETUP and CLEAR, the trim for TRIM,
none for the others (log entry 17). -/
def refusedData (code : Byte) (s : State) : List Byte :=
  match code.toNat with
  | 1 => modeData s
  | 2 => modeData s
  | 3 => modeData s
  | 4 => modeData s
  | 5 => [byteOf s.cpl.trim]
  | _ => []

/-- A refusal that leaves the state as it is. -/
def refuse (code : Byte) (why : Reason) (s : State) : Answer :=
  { state := s, reply := some (.refused why, refusedData code s) }

/-- A DONE reply with its data. -/
def doneWith (data : List Byte) (s : State) : Answer := { state := s, reply := some (.done, data) }

/-- The reply of an answer queued at LIF (R177). -/
def deliverReply (sender : Nat) (code : Byte) (a : Answer) : State :=
  match a.reply with
  | some (r, data) => sendReply sender code r data a.state
  | none => a.state

/-- The ORDER post stands at the head of the FIFO, or is taken as it completes, and is of those LIF offers to ORS (R163, R177):
the state with the post removed. A post with the own number never stands in the FIFO (R163). None while ORS takes no order. -/
def offered (sender target : Nat) (code : Byte) (args : List Byte) (s : State) : Option State :=
  if blocksRun s = true ∧ 1 ≤ sender ∧ sender ≤ 62 ∧ sender ≠ ownStation s ∧ (target = ownStation s ∨ target = 63) then
    (takenFrom (orderPost sender target code args) s.lif).map s.setLif
  else none

/-- The orders that do not end amend mode: READ and AMEND (R177, R184; by their code alone, log entry 18). -/
def keepsAmend (code : Byte) : Bool := decide (code = 9 ∨ code = 11)

/-- Amend mode ended by an addressed order (R177, R184). -/
def endAmend (code : Byte) (s : State) : State :=
  if keepsAmend code then s else s.setOrs { s.ors with amend := false }

/-- An addressed order dealt with (R177): refused BUSY while a STORE waits, by its own rule otherwise. -/
def answerOrder (sender : Nat) (code : Byte) (act : State → Answer) (s : State) : State :=
  let s1 := endAmend code s
  deliverReply sender code (if s1.ors.storeWaiting.isSome then refuse code .busy s1 else act s1)

/-- An order taken (R177): ring-wide by `ring`, with no reply and not while a STORE waits; addressed by `act`. -/
def takeOrder (sender target : Nat) (code : Byte) (args : List Byte) (ring : State → State) (act : State → Answer)
    (s : State) : State :=
  match offered sender target code args s with
  | none => s
  | some s1 =>
    if target = 63 then (if s1.ors.storeWaiting.isSome then s1 else ring s1) else answerOrder sender code act s1

/-- A ring-wide order of a code that is taken addressed only (R153, R177). -/
def ignoreRing (s : State) : State := s

/-- An order command taken, with the code and arguments of R158. -/
def takeCommand (i : Instr) (ring : State → State) (act : State → Answer) (s : State) : State :=
  match orderParts i with
  | some (sender, target, code, args) => takeOrder sender target code args ring act s
  | none => s

end Sys2Proof.Machine
end

