-- ==== Sys2Proof/Machine/Collections.lean ====
section
/-! DEFINITION. The meanings of the orders that read and amend the collections: WINDOW, READ, AMEND-BEGIN and AMEND (R160, R181 to
R185). -/

namespace Sys2Proof.Machine

/-- The current size of a collection (R26, R37, R86). -/
def collectionSize (c : Collection) (s : State) : Nat :=
  match c with
  | .layers => s.lco.column.length
  | .peers => s.pvw.peers.length
  | .strokes => s.ssq.history.length

/-- A WINDOW that passes its checks (R181). -/
def windowTaken (c : Collection) (first last : Byte) (s : State) : Answer :=
  doneWith [byteOf (collectionCode c), first, last, byteOf (collectionSize c s)]
    (s.setOrs
      { s.ors with
        cursor :=
          some { collection := c, first := first.toNat, last := last.toNat, position := first.toNat } })

/-- The WINDOW order (R181). -/
def windowOrder (collection first last : Byte) (s : State) : Answer :=
  match collectionOfCode collection.toNat with
  | none => refuse 8 .range s
  | some c =>
    if last.toNat < first.toNat ∨ collectionSize c s ≤ last.toNat then refuse 8 .range s
    else windowTaken c first last s

/-- WINDOW (R181). -/
def execWindow (sender target : Nat) (collection first last : Byte) (s : State) : Host.Outcome State Fault Refusal :=
  .next (takeCommand (.window sender target collection first last) ignoreRing (windowOrder collection first last) s)

/-- The fields of a part of a layer record (R160). -/
def layerFields (part : Byte) (r : Layer) : List Byte :=
  if part = 0 then
    beBytes 2 r.id ++ [byteOf (layerStateCode r.state), byteOf (layerFlagsCode r.flags)] ++ beBytes 3 r.bottom ++
      beBytes 3 r.top
  else beBytes 2 r.id ++ beBytes 3 r.maturity ++ beBytes 3 r.pourStart ++ beBytes 2 (r.duration.getD 0 : Nat)

/-- The flags of a part 0 of a peer entry (R160). -/
def peerFlagsCode (s : State) (p : Peer) : Nat :=
  weights [(p.heightValid, 1), (isLive p, 2), (clashes (ownStation s) (sectorOf s.srs.active) s.pvw.peers p, 4),
    (p.claim.isSome, 8), (p.needAtOpen.isSome, 16)]

/-- The claim need, claim number and claim age of a part 1 of a peer entry (R160). An absent claim's need and number are free
values (log entry 11). -/
def claimFields (free : Nat) (claim : Option PeerClaim) : List Byte × List Byte :=
  match claim with
  | some c => (beBytes 2 c.need ++ [byteOf c.number], [byteOf (c.ageMs / 10 : Nat)])
  | none =>
    ([(Config.freeBits 16 free).extractLsb' 8 8, (Config.freeBits 16 free).extractLsb' 0 8, Config.freeBits 8 free],
      [0])

/-- The fields of a part of a peer entry (R160). -/
def peerPart (part : Byte) (s : State) (p : Peer) : List Byte :=
  if part = 0 then
    [byteOf p.station, byteOf p.sector] ++ beBytes 3 p.height ++
      [byteOf (peerFlagsCode s p), byteOf (modeCode p.mode), byteOf (gatePourCode p.gate p.pour)] ++ beBytes 2 p.need
  else
    [byteOf p.station, byteOf p.strokeCount] ++ beBytes 2 (p.needAtOpen.getD 0) ++ (claimFields s.freeCount p.claim).1 ++
      beBytes 2 p.ageMs ++ (claimFields s.freeCount p.claim).2

/-- The fields of a part of a stroke history record (R160). -/
def strokeFields (part : Byte) (r : HistoryRec) : List Byte :=
  if part = 0 then
    [byteOf r.number] ++ beBytes 2 (r.allowance.getD 0) ++ beBytes 2 r.climbed ++ beBytes 2 r.liftMs ++
      beBytes 2 r.releaseMs ++ [byteOf (endCauseCode r.cause)]
  else
    [byteOf r.number, byteOf (weights [(r.creep, 1), (r.substituted, 2), (r.laser.isSome, 4)])] ++
      beBytes 2 (r.laser.getD 0)

/-- The fields of the record at a position of a collection; none at or above its size (R182, R183). -/
def recordFields (c : Collection) (position : Nat) (part : Byte) (s : State) : Option (List Byte) :=
  match c with
  | .layers => (s.lco.column[position]?).map (layerFields part)
  | .peers => (s.pvw.peers[position]?).map (peerPart part s)
  | .strokes => (s.ssq.history[position]?).map (strokeFields part)

/-- The cursor advanced: to first from last, by one otherwise (R182, R185). -/
def advance (k : Cursor) : Cursor := { k with position := if k.position = k.last then k.first else k.position + 1 }

/-- The cursor with its position returned to first (R183). -/
def rewind (k : Cursor) : Cursor := { k with position := k.first }

/-- The cursor set. -/
def setCursor (k : Cursor) (s : State) : State := s.setOrs { s.ors with cursor := some k }

/-- The position after a READ that was answered DONE: it advances after part 1, and not in amend mode (R182). -/
def cursorAfterRead (part : Byte) (amend : Bool) (k : Cursor) : Cursor := if part = 1 ∧ amend = false then advance k else k

/-- A READ answered DONE (R182). A free value that its reply may hold is used up. -/
def readDone (k : Cursor) (part : Byte) (fields : List Byte) (s : State) : Answer :=
  doneWith (byteOf (collectionCode k.collection * 16 + part.toNat : Nat) :: fields)
    ((setCursor (cursorAfterRead part s.ors.amend k) s).setFreeCount (s.freeCount + 1))

/-- The READ order (R182, R183). -/
def readOrder (part : Byte) (s : State) : Answer :=
  if 1 < part.toNat then refuse 9 .range s
  else
    match s.ors.cursor with
    | none => refuse 9 .window s
    | some k =>
      match recordFields k.collection k.position part s with
      | some fields => readDone k part fields s
      | none => refuse 9 .window (setCursor (rewind k) s)

/-- READ (R182, R183). -/
def execRead (sender target : Nat) (part : Byte) (s : State) : Host.Outcome State Fault Refusal :=
  .next (takeCommand (.read sender target part) ignoreRing (readOrder part) s)

/-- The cursor is set on the LAYERS collection (R184). -/
def cursorOnLayers (s : State) : Bool :=
  match s.ors.cursor with
  | some k => decide (k.collection = .layers)
  | none => false

/-- The AMEND-BEGIN order (R184). -/
def amendBeginOrder (s : State) : Answer :=
  if modeOf s.mct ≠ .setup ∧ modeOf s.mct ≠ .hold then refuse 10 .mode s
  else if !cursorOnLayers s then refuse 10 .window s
  else doneWith [] (s.setOrs { s.ors with amend := true })

/-- AMEND-BEGIN (R184). -/
def execAmendBegin (sender target : Nat) (s : State) : Host.Outcome State Fault Refusal :=
  .next (takeCommand (.amendBegin sender target) ignoreRing amendBeginOrder s)

/-- An AMEND at the cursor `k` whose position is below the size of LAYERS (R185). -/
def amendAt (k : Cursor) (v : Nat) (s : State) : Answer :=
  match amendLayer k.position v s.lco with
  | .pouring => refuse 11 .state s
  | .range => refuse 11 .range s
  | .done id l => doneWith (beBytes 2 id ++ beBytes 3 v) (setCursor (advance k) (s.setLco l))

/-- The AMEND order (R185). In amend mode the cursor is on LAYERS, since every WINDOW ends amend mode (R181, R184). -/
def amendOrder (maturity : BitVec 24) (s : State) : Answer :=
  if !s.ors.amend then refuse 11 .state s
  else
    match s.ors.cursor with
    | none => refuse 11 .window s
    | some k =>
      if s.lco.column.length ≤ k.position then refuse 11 .window (setCursor (rewind k) s)
      else amendAt k maturity.toNat s

/-- AMEND (R185). -/
def execAmend (sender target : Nat) (maturity : BitVec 24) (s : State) : Host.Outcome State Fault Refusal :=
  .next (takeCommand (.amend sender target maturity) ignoreRing (amendOrder maturity) s)

end Sys2Proof.Machine
end

