-- ==== Sys2Proof/Machine/ColumnEvents.lean ====
section
/-! DEFINITION. The meanings of LCO's times (R4, R12 to R15). -/

namespace Sys2Proof.Machine

/-- TICK (R12 to R15). -/
def execTick (s : State) : Host.Outcome State Fault Refusal :=
  .next
    (if blocksRun s then
      s.setLco
        (tickColumn s.ssq.height s.srs.active.formHeight s.srs.active.datum s.srs.active.fallback
          (probesOf s.srs.active s.msq.table) s.lco)
    else s)

/-- POUR_DURATION_COUNT (R4). -/
def execPourDurationCount (s : State) : Host.Outcome State Fault Refusal :=
  .next
    (if blocksRun s = true ∧ anyPouring s.lco = true then
      s.setLco { s.lco with pourSeconds := satAdd 65535 s.lco.pourSeconds 1 }
    else s)

end Sys2Proof.Machine
end

