-- ==== Sys2Proof/Machine/FeedEvents.lean ====
section
/-! DEFINITION. The meanings of FCT's inputs and times (R94 to R96, R104 to R108). -/

namespace Sys2Proof.Machine

/-- GATE_OPEN_LIMIT: the open-limit input as it is now; found on in OPENING, the gate becomes OPEN (R94). -/
def execGateOpenLimit (on : Bool) (s : State) : Host.Outcome State Fault Refusal :=
  let s1 := s.setPins { s.pins with gateOpenLimit := on }
  .next (if blocksRun s1 = true ∧ on = true ∧ s1.fct.gate = .opening then enterOpened s1 else s1)

/-- GATE_CLOSED_LIMIT: the closed-limit input as it is now; found on in CLOSING, the gate becomes CLOSED (R95, R111). -/
def execGateClosedLimit (on : Bool) (s : State) : Host.Outcome State Fault Refusal :=
  let s1 := s.setPins { s.pins with gateClosedLimit := on }
  .next (if blocksRun s1 = true ∧ on = true ∧ s1.fct.gate = .closing then enterClosed s1 else s1)

/-- The gate jams: the drive is withdrawn, and the block of a JAMMED gate is reported (R94 to R97, R99). -/
def jamGate (s : State) : State := reportBlock (gateChanged false (s.setFct { s.fct with gate := .jammed, motor := .off }))

/-- GATE_TRAVEL_TIMEOUT (R94 to R96). -/
def execGateTravelTimeout (s : State) : Host.Outcome State Fault Refusal :=
  .next (if blocksRun s = true ∧ (s.fct.gate = .opening ∨ s.fct.gate = .closing) then jamGate s else s)

/-- The backoff length for a rank among so many free places (R105, R110). -/
def backoffFor (rank places : Int) : Nat := (2000 + 250 * (rank - max 0 places)).toNat

/-- The settle decision for the own claim (R105). -/
def decideClaim (c : OwnClaim) (s : State) : State :=
  if fillGap s < s.srs.active.gReq then s.setFct { s.fct with ownClaim := none, pour := .dry }
  else
    let need := bindNeed s.cpl.record.bind c.need
    let rank := claimRank (ownStation s) need s.pvw.peers
    if (rank : Int) ≤ placesLeft s then openPour need s else enterBackoff (backoffFor rank (placesLeft s)) s

/-- SETTLE_DECISION (R104, R105). -/
def execSettleDecision (s : State) : Host.Outcome State Fault Refusal :=
  .next
    (match s.fct.ownClaim with
      | some c => if blocksRun s = true ∧ s.fct.pour = .claiming ∧ c.sent = true then decideClaim c s else s
      | none => s)

/-- BACKOFF_END (R106). -/
def execBackoffEnd (s : State) : Host.Outcome State Fault Refusal :=
  .next (if blocksRun s = true ∧ s.fct.pour = .backoff then wantOrDry s else s)

/-- A second of the pour timer, with the tests of the end conditions (R108, R109). -/
def pourSecond (s : State) : State :=
  let s1 := s.setFct { s.fct with pourSeconds := satAdd 65535 s.fct.pourSeconds 1 }
  if fillGap s1 ≤ s1.srs.active.gFull then endPour .fillReached s1
  else if s1.srs.active.pourLimit ≤ s1.fct.pourSeconds then endPour .timeLimit s1
  else s1

/-- POUR_TIMER_SECOND (R108, R109). -/
def execPourTimerSecond (s : State) : Host.Outcome State Fault Refusal :=
  .next (if blocksRun s = true ∧ s.fct.pour = .pouring then pourSecond s else s)

end Sys2Proof.Machine
end

