-- ==== Sys2Proof/Machine/HeightOrders.lean ====
section
/-! DEFINITION. The meanings of the TRIM, HEIGHT and PLANE orders (R61, R84, R85, R87, R179). -/

namespace Sys2Proof.Machine

/-- A trim limited to −32 to +31 (R61). -/
def limitTrim (t : Int) : Int := clamp (-32) 31 t

/-- CPL takes a TRIM order: the trim becomes `t` limited, and the reply carries it (R61, R179). -/
def trimTo (t : Int) (s : State) : Answer :=
  doneWith [byteOf (limitTrim t)] (s.setCpl { s.cpl with trim := limitTrim t })

/-- TRIM UP at CPL (R61). -/
def trimUpOrder (s : State) : Answer := trimTo (s.cpl.trim + 1) s

/-- TRIM DOWN at CPL (R61). -/
def trimDownOrder (s : State) : Answer := trimTo (s.cpl.trim - 1) s

/-- TRIM SET at CPL (R61). -/
def trimSetOrder (v : BitVec 8) (s : State) : Answer := trimTo v.toInt s

/-- TRIM UP (R61). -/
def execTrimUp (sender target : Nat) (s : State) : Host.Outcome State Fault Refusal :=
  .next (takeCommand (.trimUp sender target) ignoreRing trimUpOrder s)

/-- TRIM DOWN (R61). -/
def execTrimDown (sender target : Nat) (s : State) : Host.Outcome State Fault Refusal :=
  .next (takeCommand (.trimDown sender target) ignoreRing trimDownOrder s)

/-- TRIM SET (R61). -/
def execTrimSet (sender target : Nat) (value : BitVec 8) (s : State) : Host.Outcome State Fault Refusal :=
  .next (takeCommand (.trimSet sender target value) ignoreRing (trimSetOrder value) s)

/-- Own height set by an order to `h`, valid, with its frame shift and the reply's data (R81, R84, R85, R179). -/
def heightTo (h : Int) (s : State) : Answer :=
  let t := frameShiftTo h true s
  doneWith (beBytes 3 t.ssq.height) t

/-- HEIGHT SET at SSQ (R84). -/
def heightSetOrder (v : BitVec 24) (s : State) : Answer :=
  if 1000000 < v.toNat then refuse 6 .range s
  else if s.ssq.phase ≠ .idle then refuse 6 .busy s
  else heightTo v.toNat s

/-- HEIGHT SET (R84). -/
def execHeightSet (sender target : Nat) (value : BitVec 24) (s : State) : Host.Outcome State Fault Refusal :=
  .next (takeCommand (.heightSet sender target value) ignoreRing (heightSetOrder value) s)

/-- HEIGHT ADOPT at SSQ (R85). -/
def heightAdoptOrder (s : State) : Answer :=
  if s.ssq.phase ≠ .idle then refuse 6 .busy s
  else
    match requestedReference s with
    | some h => heightTo h s
    | none => refuse 6 .noNeighbour s

/-- HEIGHT ADOPT (R85). -/
def execHeightAdopt (sender target : Nat) (s : State) : Host.Outcome State Fault Refusal :=
  .next (takeCommand (.heightAdopt sender target) ignoreRing heightAdoptOrder s)

/-- The plane replaced, or withdrawn, with the laser-disagree mark cleared (R87). -/
def planeTo (p : Option Int) (s : State) : State := s.setSsq { s.ssq with plane := p, laserDisagree := false }

/-- The data of a DONE reply to PLANE: whether a plane is present, and its height (R159, R179). -/
def planeData (s : State) : List Byte :=
  match s.ssq.plane with
  | some p => 1 :: beBytes 3 p
  | none => 0 :: beBytes 3 0

/-- PLANE SET at SSQ (R87). -/
def planeSetOrder (v : BitVec 24) (s : State) : Answer :=
  if 1000000 < v.toNat then refuse 7 .range s
  else doneWith (planeData (planeTo (some v.toNat) s)) (planeTo (some v.toNat) s)

/-- PLANE SET, addressed or ring-wide (R87). -/
def execPlaneSet (sender target : Nat) (value : BitVec 24) (s : State) : Host.Outcome State Fault Refusal :=
  .next (takeCommand (.planeSet sender target value) (fun x => (planeSetOrder value x).state) (planeSetOrder value) s)

/-- PLANE WITHDRAW at SSQ (R87). -/
def planeWithdrawOrder (s : State) : Answer := doneWith (planeData (planeTo none s)) (planeTo none s)

/-- PLANE WITHDRAW, addressed or ring-wide (R87). -/
def execPlaneWithdraw (sender target : Nat) (s : State) : Host.Outcome State Fault Refusal :=
  .next (takeCommand (.planeWithdraw sender target) (fun x => (planeWithdrawOrder x).state) planeWithdrawOrder s)

end Sys2Proof.Machine
end

