-- ==== Sys2Proof/Machine/LineEvents.lean ====
section
/-! DEFINITION. The meanings of the line's events: POST_RECEIVED, FRAMING_ERROR, START_BIT, ACCESS, GARBLE, POST_SENT, MUTE_LEAVE
and LEVEL_TIMER (R155, R161 to R173). LIF runs while the node is up, also while a RESTART waits (R201). -/

namespace Sys2Proof.Machine

/-- A report for the identity test, which PVW takes while the blocks other than LIF run (R40, R163). -/
def identityReport (v : Verdict) (s : State) : State :=
  if isIdentityPost (ownStation s) v = true ∧ blocksRun s = true then identityClash s else s

/-- LIF has left MUTE: MCT removes MUTE and FCT's block ends (R172). -/
def muteEnded (s : State) : State := if blocksRun s then removeHold .mute s else s

/-- LIF leaves MUTE where the moment has come (R172). -/
def leaveIfDue (s : State) : State := if rejoinDue s.lif then muteEnded (s.setLif (leaveMute s.lif)) else s

/-- A post judged and taken into LIF, with its report to PVW; the clean post that completes the rejoin count of a timer at 4,000 ms
ends MUTE in the same event (R162, R163, R172). -/
def receivePost (v : Verdict) (s : State) : State :=
  leaveIfDue (identityReport v (s.setLif (receiveLine (ownStation s) v s.lif)))

/-- A complete post on the line: taken by a receiver that hears it; traffic alone to one that waits after a framing error (R155,
R161). -/
def hearPost (v : Verdict) (s : State) : State :=
  if hears s.lif then receivePost v s else s.setLif (trafficEnded s.lif)

/-- POST_RECEIVED (R155, R161 to R164, R172). -/
def execPostReceived (bytes : List Byte) (s : State) : Host.Outcome State Fault Refusal :=
  .next (if lineRuns s then hearPost (judgePost bytes) s else s)

/-- FRAMING_ERROR (R155, R161, R162). -/
def execFramingError (s : State) (quiet : Nat := 0) : Host.Outcome State Fault Refusal :=
  .next (if lineRuns s then s.setLif (framingErrorLine (bitTimeUs s.srs.active) quiet s.lif) else s)

/-- START_BIT (R155, R161). -/
def execStartBit (quiet : Nat) (s : State) : Host.Outcome State Fault Refusal :=
  .next (if lineRuns s then s.setLif (startBitLine (bitTimeUs s.srs.active) quiet s.lif) else s)

/-- ACCESS (R165 to R167). -/
def execAccess (quiet : Nat) (s : State) : Host.Outcome State Fault Refusal :=
  .next
    (if lineRuns s then
      s.setLif (accessLine (ownStation s) (ownRecord s) (bitTimeUs s.srs.active) quiet s.lif)
    else s)

/-- FCT at the report that its CLAIM post has failed: a claim not yet sent is discarded (R103). -/
def claimFailed (s : State) : State :=
  match s.fct.ownClaim with
  | some c =>
    if s.fct.pour = .claiming ∧ c.sent = false then wantOrDry (s.setFct { s.fct with ownClaim := none }) else s
  | none => s

/-- The reports of LIF entering MUTE from `l`, its state before the slots were emptied (R171): ORS of a REPLY discarded, FCT of a
CLAIM failed, MCT of MUTE, FCT of the block. -/
def muteReports (l : Lif) (s : State) : State :=
  let s1 := if l.replySlot.isSome then replyReported s else s
  if blocksRun s1 then addHold .mute (if l.claimSlot.isSome then claimFailed s1 else s1) else s1

/-- What follows a garble that left LIF as `l` (R169, step 5; R171). -/
def afterGarble (l : Lif) (s : State) : State :=
  if 96 ≤ l.bucket then muteReports l (s.setLif (enterMute l)) else s.setLif l

/-- GARBLE (R169, R171). -/
def execGarble (s : State) : Host.Outcome State Fault Refusal :=
  .next
    (match s.lif.transmitter with
      | some t => if lineRuns s then afterGarble (garbleLine (ownStation s) t s.lif) s else s
      | none => s)

/-- FCT at the report that the CLAIM post numbered `number` has been sent (R103, R104; log entry 13). -/
def claimSent (number : Nat) (s : State) : State :=
  match s.fct.ownClaim with
  | some c =>
    if s.fct.pour = .claiming ∧ c.sent = false ∧ c.number = number then
      s.setFct { s.fct with ownClaim := some { c with sent := true }, settleMs := 0 }
    else s
  | none => s

/-- MCT at the report that a HALT post has been sent: the queued halt becomes absent, unless a successor waits (R143; log
entry 12). -/
def haltSent (s : State) : State :=
  match s.lif.haltSlot with
  | some _ => s
  | none => s.setMct { s.mct with queuedHalt := none }

/-- The report of a clean own post to the block that queued it (R170). -/
def reportSent (body : PostBody) (s : State) : State :=
  match body with
  | .claim p => if blocksRun s then claimSent p.number s else s
  | .halt _ => if blocksRun s then haltSent s else s
  | .reply _ => replyReported s
  | _ => s

/-- POST_SENT (R170). -/
def execPostSent (s : State) : Host.Outcome State Fault Refusal :=
  .next
    (match s.lif.transmitter with
      | some t => if lineRuns s then reportSent t.body (s.setLif (sentLine (ownStation s) s.lif)) else s
      | none => s)

/-- MUTE_LEAVE: the timer step at which the rejoin timer has reached 4,000 ms with 8 clean posts heard (R172). -/
def execMuteLeave (s : State) : Host.Outcome State Fault Refusal := .next (if lineRuns s then leaveIfDue s else s)

/-- LEVEL_TIMER (R167). -/
def execLevelTimer (s : State) : Host.Outcome State Fault Refusal :=
  .next
    (if lineRuns s = true ∧ s.lif.levelMs.isSome = true then
      requestLevel (s.setLif { s.lif with levelMs := some 0 })
    else s)

end Sys2Proof.Machine
end

