-- ==== Sys2Proof/Machine/ModeEvents.lean ====
section
/-! DEFINITION. The meanings of MCT's two inputs (R145, R146). -/

namespace Sys2Proof.Machine

/-- The qualified E-stop input turns active: ESTOP is added, with its cut, and a HALT post of kind ALL is queued (R145). -/
def estopOn (s : State) : State :=
  queueHalt { kind := .all, reason := .estop } (addHold .estop (s.setMct { s.mct with estopActive := true }))

/-- ESTOP_CHANGE (R145). -/
def execEstopChange (active : Bool) (s : State) : Host.Outcome State Fault Refusal :=
  .next
    (if blocksRun s = true ∧ active ≠ s.mct.estopActive then
      if active then estopOn s else s.setMct { s.mct with estopActive := false }
    else s)

/-- The key's qualified position changes to `pos` (R146). -/
def keyTo (pos : KeyPos) (s : State) : State :=
  let s1 := s.setMct { s.mct with key := pos }
  if s.mct.key = .run then addHold .key s1 else if pos = .run then removeHold .key s1 else reportBlock s1

/-- KEY_CHANGE (R146): a steady reading of the contacts. -/
def execKeyChange (contacts : KeyContacts) (s : State) : Host.Outcome State Fault Refusal :=
  .next (if blocksRun s = true ∧ keyPosition contacts ≠ s.mct.key then keyTo (keyPosition contacts) s else s)

end Sys2Proof.Machine
end

