-- ==== Sys2Proof/Machine/ModeOrders.lean ====
section
/-! DEFINITION. The meanings of the mode orders CLIMB, HOLD, SETUP and CLEAR (R147 to R153). -/

namespace Sys2Proof.Machine

/-- The hold set after a CLIMB order (R147, R148). -/
def climbHold (estopActive : Bool) (h : HoldSet) : HoldSet :=
  { h with operator := false, haltClimb := false, haltAll := false, estop := h.estop && estopActive }

/-- The CLASH check of R147 fails. -/
def clashFails (s : State) : Bool :=
  clashNear (ownStation s) (sectorOf s.srs.active) (ringOf s.srs.active) s.pvw.peers

/-- The first readiness check of R147 that fails. -/
def readiness (s : State) : Option Reason :=
  if s.srs.loadResult = .default then some .settingsDefault
  else if s.srs.calibrationPending then some .calibrationPending
  else if !s.ssq.heightValid then some .noHeight
  else if !s.lco.known then some .columnUnknown
  else if clashFails s then some .clash
  else none

/-- A CLIMB order that passes: the causes it removes, and the base RUNNING (R147, R148). -/
def climbTaken (s : State) : State :=
  afterCauses s.mct (s.setMct { s.mct with hold := climbHold s.mct.estopActive s.mct.hold, base := .running })

/-- The CLIMB order at MCT (R147, R148). -/
def climbOrder (s : State) : Answer :=
  match modeOf s.mct with
  | .safe => refuse 1 .mode s
  | .setup =>
    if s.ssq.phase ≠ .idle then refuse 1 .busy s
    else
      match readiness s with
      | some why => refuse 1 why s
      | none => doneWith (modeData (climbTaken s)) (climbTaken s)
  | _ => doneWith (modeData (climbTaken s)) (climbTaken s)

/-- CLIMB, addressed or ring-wide (R147, R148, R153). -/
def execClimb (sender target : Nat) (s : State) : Host.Outcome State Fault Refusal :=
  .next (takeCommand (.climb sender target) (fun x => (climbOrder x).state) climbOrder s)

/-- The HOLD order at MCT (R149). -/
def holdOrder (s : State) : Answer := doneWith (modeData (addHold .operator s)) (addHold .operator s)

/-- HOLD, addressed or ring-wide (R149, R153). -/
def execHold (sender target : Nat) (s : State) : Host.Outcome State Fault Refusal :=
  .next (takeCommand (.hold sender target) (fun x => (holdOrder x).state) holdOrder s)

/-- A SETUP order that passes (R150). -/
def setupTaken (s : State) : State := afterCauses s.mct (s.setMct { s.mct with base := .setup })

/-- The SETUP order at MCT (R150). -/
def setupOrder (s : State) : Answer :=
  match modeOf s.mct with
  | .hold =>
    if s.ssq.phase ≠ .idle ∨ s.fct.gate ≠ .closed then refuse 3 .busy s
    else doneWith (modeData (setupTaken s)) (setupTaken s)
  | _ => refuse 3 .mode s

/-- SETUP (R150). -/
def execSetup (sender target : Nat) (s : State) : Host.Outcome State Fault Refusal :=
  .next (takeCommand (.setup sender target) ignoreRing setupOrder s)

/-- FCT at a CLEAR order: a JAMMED gate whose closed limit is on becomes CLOSED, and the block it made ends (R96, R111). -/
def freeGate (s : State) : State :=
  if s.fct.gate = .jammed ∧ s.pins.gateClosedLimit = true then reportBlock (enterClosed s) else s

/-- The three steps a CLEAR order takes in every mode (R152). -/
def clearSteps (s : State) : State :=
  let s1 := freeGate (s.setMct { s.mct with window := [] })
  s1.setMsq { s1.msq with overrun := false }

/-- The spread compared afresh: SPREAD is removed if the difference is at most Ea or no reference can be formed (R151). -/
def spreadGone (s : State) : Bool :=
  match (currentReference s).href with
  | some h => !spreadTooWide h s.ssq.height s.srs.active.spreadAlarm
  | none => true

/-- The SAFE causes that remain after a CLEAR order (R151). -/
def clearedSafe (s : State) : SafeSet :=
  let f := s.mct.safe
  { spread := f.spread && !spreadGone s
    strokeRepeat := false
    overpressure := f.overpressure && s.ssq.overpressure
    valve := f.valve && (s.ssq.liftCoilOpen || s.ssq.releaseCoilOpen)
    sectorClash := f.sectorClash
    identityClash := f.identityClash
    restored := false }

/-- The state after a CLEAR order (R151, R152). -/
def clearTaken (s : State) : State :=
  let s1 := clearSteps s
  if modeOf s1.mct = .safe then reduceSafe (clearedSafe s1) s1 else s1

/-- The CLEAR order at MCT (R151, R152). -/
def clearOrder (s : State) : Answer :=
  let t := clearTaken s
  if t.mct.safe ≠ noSafe ∨ t.fct.gate = .jammed then refuse 4 .causePresent t else doneWith (modeData t) t

/-- CLEAR (R151, R152). -/
def execClear (sender target : Nat) (s : State) : Host.Outcome State Fault Refusal :=
  .next (takeCommand (.clear sender target) ignoreRing clearOrder s)

end Sys2Proof.Machine
end

