-- ==== Sys2Proof/Machine/PeerEvents.lean ====
section
/-! DEFINITION. The meanings of the posts taken by PVW and MCT and of the peer table's times (R29 to R39, R44, R144). -/

namespace Sys2Proof.Machine

/-- The state with a post removed from the FIFO by its owner, while the owners take posts (R164); none while it is not offered. A
post with the own number never stands in the FIFO (R163). -/
def takePost (sender : Nat) (body : PostBody) (s : State) : Option State :=
  if blocksRun s = true ∧ sender ≠ ownStation s then
    (takenFrom { sender := sender, body := body } s.lif).map s.setLif
  else none

/-- The sender is one a peer can have: 1 to 62 (R29, R144). -/
def isPeerStation (sender : Nat) : Bool := decide (1 ≤ sender ∧ sender ≤ 62)

/-- The peer table replaced. -/
def setPeers (t : List Peer) (s : State) : State := s.setPvw { s.pvw with peers := t }

/-- An entry updated from `e` to `e'`: the table, the clash test and the signals to FCT (R31, R38, R39, R44). -/
def updatePeer (e e' : Peer) (s : State) : State :=
  signalFeed (feedPartChanged e e') (decide ((e.gate = .closed) ≠ (e'.gate = .closed)))
    (retestClash (setPeers (putPeer e' s.pvw.peers) s))

/-- An entry created, or the table-full mark set (R30). -/
def createPeer (sender : Nat) (p : LevelPost) (s : State) : State :=
  if s.pvw.peers.length < 47 then
    signalFeed (decide (p.gate ≠ .closed)) (decide (p.gate ≠ .closed))
      (retestClash (setPeers (insertPeer (newPeer sender p) s.pvw.peers) s))
  else s.setPvw { s.pvw with tableFull := true }

/-- PVW takes a LEVEL post (R29 to R31). -/
def takeLevel (sender : Nat) (p : LevelPost) (s : State) : State :=
  if isPeerStation sender = false ∨ ringOf s.srs.active ≤ p.sector then s
  else
    match findPeer sender s.pvw.peers with
    | some e => updatePeer e (levelUpdate p e) s
    | none => createPeer sender p s

/-- LEVEL_TAKEN (R29 to R31). -/
def execLevelTaken (sender : Nat) (post : LevelPost) (s : State) : Host.Outcome State Fault Refusal :=
  .next
    (match takePost sender (.level post) s with
      | some s1 => takeLevel sender post s1
      | none => s)

/-- The entry that a CLAIM or GATE post of this sender is for: none of a sender that can be no peer, and none without an entry (R29,
R32, R33). -/
def peerOf (sender : Nat) (s : State) : Option Peer :=
  if isPeerStation sender then findPeer sender s.pvw.peers else none

/-- PVW takes a CLAIM post: each new claim is a table change (R32, R34). -/
def takeClaim (sender : Nat) (p : ClaimPost) (s : State) : State :=
  match peerOf sender s with
  | some e => signalFeed true false (setPeers (putPeer (claimUpdate p e) s.pvw.peers) s)
  | none => s

/-- CLAIM_TAKEN (R29, R32). -/
def execClaimTaken (sender : Nat) (post : ClaimPost) (s : State) : Host.Outcome State Fault Refusal :=
  .next
    (match takePost sender (.claim post) s with
      | some s1 => takeClaim sender post s1
      | none => s)

/-- PVW takes a GATE post (R33). -/
def takeGate (sender : Nat) (p : GatePost) (s : State) : State :=
  match peerOf sender s with
  | some e => updatePeer e (gateUpdate p e) s
  | none => s

/-- GATE_TAKEN (R29, R33). -/
def execGateTaken (sender : Nat) (post : GatePost) (s : State) : Host.Outcome State Fault Refusal :=
  .next
    (match takePost sender (.gate post) s with
      | some s1 => takeGate sender post s1
      | none => s)

/-- The hold cause a halt of this kind adds (R144). -/
def haltCause : HaltKind → HoldCause
  | .climb => .haltClimb
  | .all => .haltAll

/-- MCT takes a HALT post (R144). -/
def takeHalt (sender : Nat) (p : HaltPost) (s : State) : State :=
  if isPeerStation sender then
    addHold (haltCause p.kind)
      (s.setMct { s.mct with lastHalt := some { sender := sender, post := p, minute := s.lco.runClock } })
  else s

/-- HALT_TAKEN (R144). -/
def execHaltTaken (sender : Nat) (post : HaltPost) (s : State) : Host.Outcome State Fault Refusal :=
  .next
    (match takePost sender (.halt post) s with
      | some s1 => takeHalt sender post s1
      | none => s)

/-- CLAIM_LAPSE: 1,000 ms since the claim was heard (R34). -/
def execClaimLapse (station : Nat) (s : State) : Host.Outcome State Fault Refusal :=
  .next
    (match findPeer station s.pvw.peers with
      | some e =>
        if blocksRun s = true ∧ e.claim.isSome = true then
          signalFeed true false (setPeers (putPeer { e with claim := none } s.pvw.peers) s)
        else s
      | none => s)

/-- PEER_STALE: the age reaches 2,000 ms; the entry stays in the table (R35, R36). -/
def execPeerStale (station : Nat) (s : State) : Host.Outcome State Fault Refusal :=
  .next
    (match findPeer station s.pvw.peers with
      | some e =>
        if blocksRun s then setPeers (putPeer { e with ageMs := max e.ageMs 2000 } s.pvw.peers) s else s
      | none => s)

/-- An entry dropped (R35). -/
def dropPeer (e : Peer) (s : State) : State :=
  signalFeed (decide (e.gate ≠ .closed)) (decide (e.gate ≠ .closed))
    (retestClash (s.setPvw { s.pvw with peers := removePeer e.station s.pvw.peers, tableFull := false }))

/-- PEER_DROP: the age reaches 30,000 ms (R35). -/
def execPeerDrop (station : Nat) (s : State) : Host.Outcome State Fault Refusal :=
  .next
    (match findPeer station s.pvw.peers with
      | some e => if blocksRun s then dropPeer e s else s
      | none => s)

end Sys2Proof.Machine
end

