-- ==== Sys2Proof/Machine/Check.lean ====
section
/-! DEFINITION. The stored block's 16-bit check (R191): the post check of R156 over the fields of the setting block. -/

namespace Sys2Proof.Machine

/-- A field's bytes in the stored block: whether it has a value, and the value in the four bytes in which SETTING carries it (R156,
R158). The spec lays out no bytes of the block; this layout is the model's (log entry 29). -/
def fieldBytes (v : Option Int) : List Byte :=
  match v with
  | some x => 1 :: beBytes 4 x
  | none => [0, 0, 0, 0, 0]

/-- The bytes of a setting block, fields 1 to 41 in the order of R192 (log entry 29). -/
def settingBytes (c : Settings) : List Byte := (List.range 41).flatMap fun i => fieldBytes (fieldValue c (i + 1))

/-- `f n`, with `n` brought to a numeral first, so that Lean's kernel evaluates a long division byte by byte. -/
def withNumeral {α : Type} (n : Nat) (f : Nat → α) : α :=
  match n with
  | 0 => f 0
  | k + 1 => f (k + 1)

/-- The check register `r` after these bytes: the division of R156, one byte at a time (it is `crcOf`: `crcFrom_eq`). -/
def crcFrom (r : BitVec 16) : List Byte → BitVec 16
  | [] => r
  | b :: rest => withNumeral (crcByte r b).toNat fun n => crcFrom (BitVec.ofNat 16 n) rest

/-- The check computed over a setting block with the generator and method of the post check (R156, R191). -/
def settingCheck (c : Settings) : BitVec 16 := crcFrom 0xFFFF#16 (settingBytes c)

/-- The stored check agrees with the stored fields (R191, R194). -/
def StoredBlock.checkAgrees (b : StoredBlock) : Bool := decide (b.check = settingCheck b.fields)

/-- The stored block that a completed write leaves: every field replaced, and the check computed over the values written (R195). -/
def writtenBlock (c : Settings) : StoredBlock := { fields := c, check := settingCheck c }

/-- The stored block that a write cut short leaves: the fields are free values, and so is the check but for R195's own words, that
it disagrees with the fields (log entry 10). -/
def tornBlock (n : Nat) : StoredBlock :=
  { fields := tornSettings n
    check := settingCheck (tornSettings n) ^^^ (if Config.tornCheck n = 0 then 1 else Config.tornCheck n) }

end Sys2Proof.Machine
end

