-- ==== Sys2Proof/Machine/Retention.lean ====
section
/-! DEFINITION. The retained state, the save, the supply's events and the writes of the stored block (R90, R113, R133, R154, R187,
R195, R198, R199, R201, R204). -/

namespace Sys2Proof.Machine

/-! ### The save (R198) -/

/-- LCO's part of the save: a POURING record is ended with the reason blocked (R21). -/
def savedColumn (s : State) : Lco := endLayer s.ssq.height s.srs.active.lMin .blocked s.lco

/-- The content of the retention area at a save (R198). -/
def retainedOf (atRestart : Bool) (s : State) : Retained :=
  { height := s.ssq.height
    heightValid := s.ssq.heightValid
    plane := s.ssq.plane
    strokeCount := s.ssq.strokeCount
    history := s.ssq.history
    whileStroking := decide (s.ssq.phase ≠ .idle)
    extension := ((s.ssq.stroke).map (extensionAtSave s.ssq.phase s.msq.table)).getD 0
    column := (savedColumn s).column
    runClock := s.lco.runClock
    trim := s.cpl.trim
    base := s.mct.base
    wasSafe := decide (modeOf s.mct = .safe)
    safe := s.mct.safe
    window := s.mct.window
    atRestart := atRestart }

/-- What the save stops: both valves (R90), the gate drives (R113), the converter (R133) and the lamps (R204). -/
def stopOutputs (s : State) : State :=
  { s with
    ssq := { liftOff s.ssq with releaseOn := false }
    fct := { s.fct with motor := .off }
    msq := { s.msq with chain := none, pendingTrigger := none }
    lco := savedColumn s
    ldr := { s.ldr with lit := false } }

/-- The save: the area written, the outage counter at 0, the valid mark set (R198, R201). -/
def saveArea (atRestart : Bool) (s : State) : State :=
  (stopOutputs s).setSrs
    { s.srs with area := some (retainedOf atRestart s), outage := 0, areaValid := true }

/-! ### The supply (R195, R198, R201) -/

/-- A write of the stored block that the loss of the supply stops where it is: the check then disagrees with the fields, which are
free values (R195; log entry 10). -/
def tearWrite (s : State) : State :=
  match s.srs.write with
  | none => s
  | some _ =>
    (s.setSrs { s.srs with stored := some (tornBlock s.freeCount), write := none, writesWaiting := [] }).setFreeCount
      (s.freeCount + 1)

/-- The node stops (R198). -/
def stopNode (s : State) : State := s.setSrs { s.srs with life := .stopped }

/-- The RESTART marking of the area cleared (R201). -/
def clearRestartMark (s : State) : State :=
  s.setSrs { s.srs with area := s.srs.area.map fun a => { a with atRestart := false } }

/-- A save that the hold-up does not outlast: the outputs are stopped, the valid mark stays clear (R198). -/
def failedSave (s : State) : State := (stopOutputs s).setSrs { s.srs with areaValid := false }

/-- Power-fail detect turns active (R198, R201): no second save while a RESTART waits or its start runs. -/
def powerFailed (holdUp : Bool) (s : State) : State :=
  match s.srs.life with
  | .stopped => s
  | .restarting => stopNode (tearWrite (clearRestartMark s))
  | .up =>
    if s.ors.restartWaiting then stopNode (tearWrite (clearRestartMark s))
    else if holdUp then stopNode (tearWrite (saveArea false s))
    else stopNode (tearWrite (failedSave s))

/-- POWER_FAIL (R198, R201). -/
def execPowerFail (holdUp : Bool) (s : State) : Host.Outcome State Fault Refusal := .next (powerFailed holdUp s)

/-- OUTAGE_MINUTE: a whole minute stopped with the valid mark set (R199). -/
def execOutageMinute (s : State) : Host.Outcome State Fault Refusal :=
  .next
    (if s.srs.life = .stopped ∧ s.srs.areaValid = true then
      s.setSrs { s.srs with outage := satAdd 1440 s.srs.outage 1 }
    else s)

/-- RETENTION_LOST: the retention supply, which carries the area only while the main supply is absent, is exhausted (R199). DESIGN CHOICE
(log entry 41): the lost counter, for which R199 gives no value, is held as 0. -/
def execRetentionLost (s : State) : Host.Outcome State Fault Refusal :=
  .next
    (if s.srs.life = .stopped then s.setSrs { s.srs with area := none, areaValid := false, outage := 0 } else s)

/-! ### Writes of the stored block (R187, R195) -/

/-- The write in progress done: the stored block is the block written, and the next write asked for begins (R195). -/
def writeCompleted (w : BlockWrite) (r : Srs) : Srs :=
  match r.writesWaiting with
  | [] => { r with stored := some (writtenBlock w.block), write := none }
  | next :: rest => beginWrite next { r with writesWaiting := rest }

/-- SRS reports a STORE's write done: ORS clears the store-waiting mark and queues the DONE reply (R187). -/
def storeReported (s : State) : State :=
  match s.ors.storeWaiting with
  | some sender => sendReply sender 13 .done [] (s.setOrs { s.ors with storeWaiting := none })
  | none => s

/-- The end of a write (R195), after which a waiting RESTART may begin (R201). -/
def writeDone (w : BlockWrite) (s : State) : State :=
  let s1 := s.setSrs (writeCompleted w s.srs)
  tryRestart (if w.forStore then storeReported s1 else s1)

/-- STORE_WRITE_DONE (R187, R195). -/
def execStoreWriteDone (s : State) : Host.Outcome State Fault Refusal :=
  .next
    (match s.srs.write with
      | some w => if s.srs.life = .up then writeDone w s else s
      | none => s)

end Sys2Proof.Machine
end

