-- ==== Sys2Proof/Machine/SettingsOrders.lean ====
section
/-! DEFINITION. The meanings of SETTING, DEFAULTS, STORE, CALIBRATE and RESTART (R186 to R189). -/

namespace Sys2Proof.Machine

/-- The mode and key conditions of the setting and calibration orders: SETUP, then the key in SERVICE (R186, R187, R189). -/
def serviceCheck (s : State) : Option Reason :=
  if modeOf s.mct ≠ .setup then some .mode else if s.mct.key ≠ .service then some .key else none

/-- A SETTING that passes (R186). -/
def settingTaken (field : Byte) (v : Int) (s : State) : Answer :=
  doneWith (field :: beBytes 4 v) (s.setSrs { s.srs with staged := setField s.srs.staged field.toNat v })

/-- The SETTING order (R186). -/
def settingOrder (field : Byte) (value : BitVec 32) (s : State) : Answer :=
  match serviceCheck s with
  | some why => refuse 12 why s
  | none => if inFieldRange field.toNat value.toInt then settingTaken field value.toInt s else refuse 12 .range s

/-- SETTING (R186). -/
def execSetting (sender target : Nat) (field : Byte) (value : BitVec 32) (s : State) : Host.Outcome State Fault Refusal :=
  .next (takeCommand (.setting sender target field value) ignoreRing (settingOrder field value) s)

/-- The DEFAULTS order (R186). -/
def defaultsOrder (s : State) : Answer :=
  match serviceCheck s with
  | some why => refuse 14 why s
  | none => doneWith [] (s.setSrs { s.srs with staged := defaultSettings, defaultsTaken := true })

/-- DEFAULTS (R186). -/
def execDefaults (sender target : Nat) (s : State) : Host.Outcome State Fault Refusal :=
  .next (takeCommand (.defaults sender target) ignoreRing defaultsOrder s)

/-- STORE has a base (R187). -/
def storeBase (r : Srs) : Bool := decide (r.loadResult = .good) || r.checkAgreed || r.defaultsTaken

/-- A STORE that passes: the store-waiting mark, and the write asked for; the reply waits (R187). -/
def storeTaken (sender : Nat) (s : State) : Answer :=
  { state :=
      (s.setOrs { s.ors with storeWaiting := some sender }).setSrs
        (askWrite { block := s.srs.staged, forStore := true } s.srs)
    reply := none }

/-- The STORE order (R187). -/
def storeOrder (sender : Nat) (s : State) : Answer :=
  match serviceCheck s with
  | some why => refuse 13 why s
  | none => if storeBase s.srs then storeTaken sender s else refuse 13 .noBase s

/-- STORE (R187). -/
def execStore (sender target : Nat) (s : State) : Host.Outcome State Fault Refusal :=
  .next (takeCommand (.store sender target) ignoreRing (storeOrder sender) s)

/-- The CALIBRATE order (R189); SSQ takes the request, since it is IDLE and the mode is SETUP (R88). -/
def calibrateOrder (s : State) : Answer :=
  match serviceCheck s with
  | some why => refuse 15 why s
  | none =>
    if !clearForCalibration s.srs.active.mRel s.lco then refuse 15 .state s
    else if s.ssq.phase ≠ .idle then refuse 15 .busy s
    else doneWith [] (startStroke .calibration none s)

/-- CALIBRATE (R88, R189). -/
def execCalibrate (sender target : Nat) (s : State) : Host.Outcome State Fault Refusal :=
  .next (takeCommand (.calibrate sender target) ignoreRing calibrateOrder s)

/-- The refusal of a RESTART, if any (R188). -/
def restartRefusal (s : State) : Option Reason :=
  if modeOf s.mct = .climb then some .mode
  else if s.ssq.phase ≠ .idle ∨ s.fct.gate ≠ .closed then some .busy
  else none

/-- A RESTART that passes: the waiting mark and the save (R188, R201). -/
def restartTaken (s : State) : State :=
  let s1 := s.setOrs { s.ors with restartWaiting := true }
  saveArea true (s1.setSrs { s1.srs with restartReady := false })

/-- The RESTART order (R188). -/
def restartOrder (s : State) : Answer :=
  match restartRefusal s with
  | some why => refuse 16 why s
  | none => doneWith [] (restartTaken s)

/-- The reply of a RESTART that LIF discards at once, being in MUTE, or that cannot go, LIF being silent (R171, R188). -/
def restartWithoutReply (s : State) : State :=
  if s.ors.restartWaiting = true ∧ (s.lif.muted = true ∨ s.lif.silent = true) then
    tryRestart (s.setSrs { s.srs with restartReady := true })
  else s

/-- RESTART (R188, R201). -/
def execRestart (sender target : Nat) (s : State) : Host.Outcome State Fault Refusal :=
  .next
    (if blocksRun s then restartWithoutReply (takeCommand (.restart sender target) ignoreRing restartOrder s) else s)

end Sys2Proof.Machine
end

