-- ==== Sys2Proof/Machine/Start.lean ====
section
/-! DEFINITION. The start sequence (R20, R24, R89, R91, R114, R131, R154, R174, R194, R196, R200): the meanings of START,
START_CALIBRATION_STEP and JOIN_LISTEN_END. -/

namespace Sys2Proof.Machine

/-! ### Step 1: load (R194, R196) -/

/-- The stored block as the load step reads it (R194). No write is in progress at a start (R195, R201); for a state that has one all
the same, which no run reaches, it reads the free values of a write cut short (log entry 10). -/
def readBlock (r : Srs) : StoredBlock := r.stored.getD (tornBlock 0)

/-- The stored block passes the load step (R194). -/
def loadPasses (r : Srs) : Bool := loadsGood (readBlock r).fields (readBlock r).checkAgrees

/-- The active settings of the start (R194). -/
def loadedSettings (r : Srs) : Settings := if loadPasses r then (readBlock r).fields else defaultSettings

/-- SRS after the load step, up again at the end of step 3 with the valid mark cleared (R194, R196, R200). -/
def loadedSrs (r : Srs) : Srs :=
  { r with
    active := loadedSettings r
    staged := (readBlock r).fields
    loadResult := if loadPasses r then .good else .default
    checkAgreed := (readBlock r).checkAgrees
    defaultsTaken := false
    calibrationPending := decide ((loadedSettings r).calibrateNext = 1)
    areaValid := false
    life := .up
    step := .deciding
    joinMs := 0
    restartReady := false }

/-! ### Step 2: the retention check (R200) -/

/-- The retained state the start takes: none at a cold start (R200). -/
def retainedState (r : Srs) : Option Retained := if r.areaValid then r.area else none

/-- The outage minutes LCO credits: none at a commanded restart (R200, R201). -/
def outageMinutes (r : Srs) (a : Retained) : Nat := if a.atRestart then 0 else r.outage

/-! ### The converter and the receiver during steps 1 to 3 (R200) -/

/-- MSQ after one of the events of steps 1 to 3: it converts and keeps its table, and announces nothing (R121, R200). -/
def heardMsq (m : Msq) (e : StartEvent) : Msq :=
  match e with
  | .conversion raw => convertMsq raw.toNat m
  | .beamPresent on => if on = decide (m.table.beam.state ≠ .absent) then m else beamChangedMsq on m
  | _ => m

/-- LIF after one of the events of steps 1 to 3: clean posts go to the FIFO, and no report is made (R200). -/
def heardLif (own bitUs : Nat) (l : Lif) (e : StartEvent) : Lif :=
  match e with
  | .startBit quiet => startBitLine bitUs quiet l
  | .post bytes => receiveLine own (judgePost bytes) l
  | .framingError quiet => framingErrorLine bitUs quiet l
  | _ => l

/-- The beam-present input after one of the events of steps 1 to 3. -/
def heardBeam (on : Bool) (e : StartEvent) : Bool :=
  match e with
  | .beamPresent x => x
  | _ => on

/-- An event of steps 1 to 3 is a report of the identity test, made by a receiver that takes what it hears (R40, R161, R163). -/
def reportsIdentity (own : Nat) (l : Lif) (e : StartEvent) : Bool :=
  match e with
  | .post bytes => hears l && isIdentityPost own (judgePost bytes)
  | _ => false

/-- Some post heard from LIF's state `l` on is a report of the identity test, held until the end of step 3 (R40, R200). -/
def heardIdentity (own bitUs : Nat) (l : Lif) : List StartEvent → Bool
  | [] => false
  | e :: rest => reportsIdentity own l e || heardIdentity own bitUs (heardLif own bitUs l e) rest

/-! ### Step 3: restore or rebuild -/

/-- SSQ restored, before any stroke credit (R89). -/
def restoredSsq (a : Retained) : Ssq :=
  { ssqCold with
    height := a.height
    heightValid := a.heightValid
    heightLimit := decide (a.height = maxHeight)
    plane := a.plane
    strokeCount := a.strokeCount
    history := a.history }

/-- SSQ after the start, before any stroke credit (R89). -/
def startSsq (a : Option Retained) : Ssq :=
  match a with
  | some x => restoredSsq x
  | none => ssqCold

/-- LCO after the start, before any stroke credit (R20, R24). -/
def startLco (c : Settings) (r : Srs) (a : Option Retained) : Lco :=
  match a with
  | some x => restoreColumn x.height c.datum c.fallback (outageMinutes r x) x.column x.runClock
  | none => lcoCold

/-- CPL after the start (R46). -/
def startCpl (a : Option Retained) : Cpl := { cplCold with trim := (a.map Retained.trim).getD 0 }

/-- The base of a start: SETUP where the load failed (R154, R194). -/
def startBase (good : Bool) (a : Retained) : Base := if good then a.base else .setup

/-- MCT restored, before the inputs (R154). -/
def restoredMct (good : Bool) (a : Retained) : Mct :=
  { mctCold with
    base := startBase good a
    safe := { noSafe with restored := a.wasSafe }
    restored := if a.wasSafe then some a.safe else none
    hold := { noHold with operator := decide (startBase good a = .running) && !a.wasSafe }
    window := a.window }

/-- MCT after the start, before the inputs (R154). -/
def startMct (good : Bool) (a : Option Retained) : Mct :=
  match a with
  | some x => restoredMct good x
  | none => mctCold

/-- MCT with the inputs read (R154). -/
def withInputs (x : StartInputs) (m : Mct) : Mct :=
  { m with
    estopActive := x.estopActive
    key := keyPosition x.key
    hold := { m.hold with estop := x.estopActive, key := decide (keyPosition x.key ≠ .run) } }

/-- The blocks as step 3 builds them, before the stroke credit, the posts queued and the end of the step. DESIGN CHOICE (log entry
42): the millisecond time begins at 0, for no rule gives it a value at a start. -/
def builtState (x : StartInputs) (heard : List StartEvent) (s : State) : State :=
  let r := s.srs
  let c := loadedSettings r
  let a := retainedState r
  { s with
    lif := heard.foldl (heardLif (stationOf c) (bitTimeUs c)) (lifAtStart (stationOf c))
    pvw := pvwAtStart
    lco := startLco c r a
    cpl := startCpl a
    ssq := startSsq a
    msq := heard.foldl heardMsq (msqAtStart x.beamPresent)
    fct := fctAtStart x.gateClosedLimit
    mct := withInputs x (startMct (loadPasses r) a)
    ors := orsAtStart
    srs := loadedSrs r
    ldr := ldrAtStart
    pins :=
      { gateOpenLimit := x.gateOpenLimit, gateClosedLimit := x.gateClosedLimit,
        beamPresent := heard.foldl heardBeam x.beamPresent }
    nowMs := 0 }

/-- The history record of a stroke credit (R91). -/
def powerCutRecord (number : Nat) (credit : Int) : HistoryRec :=
  { number := number, allowance := none, climbed := credit, liftMs := 0, releaseMs := 0, cause := .powerCut, creep := false,
    substituted := false, laser := none }

/-- The stroke credit after a power cut in a stroke (R91); the height-limit mark follows the height it leaves (R89). -/
def strokeCredit (a : Retained) (s : State) : State :=
  let credit := max 0 (a.extension - s.srs.active.takeUp)
  let s1 := frameShiftTo (s.ssq.height + credit) s.ssq.heightValid s
  let number := (s1.ssq.strokeCount + 1) % 256
  s1.setSsq
    { s1.ssq with
      heightLimit := decide (s1.ssq.height = maxHeight)
      strokeCount := number
      history := joinHistory (powerCutRecord number credit) s1.ssq.history }

/-- The stroke credit where the retained state calls for it (R91). -/
def creditStroke (a : Option Retained) (s : State) : State :=
  match a with
  | some x => if x.whileStroking then strokeCredit x s else s
  | none => s

/-- The posts step 3 queues: FCT's GATE post (R114), and MCT's HALT post where the E-stop is found active (R154). -/
def startPosts (s : State) : State :=
  let s1 := queueGate false s
  if s1.mct.estopActive then queueHalt { kind := .all, reason := .estop } s1 else s1

/-- The end of step 3 (R200): each block takes the channel states as the table holds them, MSQ tests its sense condition, and LIF
gives PVW the reports it held (in the order of log entry 19). DESIGN CHOICE (log entry 39): only the states are taken here. A
result that MSQ held back in steps 1 to 3 is not delivered afterwards, so a good FILL conversion of that time does not make LCO's
column known (R22): the next good FILL result does. -/
def endOfStep3 (identity : Bool) (s : State) : State :=
  let s1 := senseTest (reportBlock s)
  if identity then identityClash s1 else s1

/-- Steps 1 to 3 of a start (R200). -/
def startNode (x : StartInputs) (heard : List StartEvent) (s : State) : State :=
  endOfStep3
    (heardIdentity (stationOf (loadedSettings s.srs)) (bitTimeUs (loadedSettings s.srs))
      (lifAtStart (stationOf (loadedSettings s.srs))) heard)
    (startPosts (creditStroke (retainedState s.srs) (builtState x heard s)))

/-- START (R200, R201): from stopped, or once a commanded restart has begun. -/
def execStart (inputs : StartInputs) (heard : List StartEvent) (s : State) : Host.Outcome State Fault Refusal :=
  .next (if s.srs.life = .up then s else startNode inputs heard s)

/-! ### Steps 4 to 6 (R196, R200) -/

/-- SRS asks for the calibration stroke, and SSQ takes the request (R88, R196; log entry 26). -/
def calibratesAtStart (s : State) : Bool :=
  s.srs.calibrationPending && decide (s.srs.loadResult = .good) && decide (modeOf s.mct = .setup) &&
    clearForCalibration s.srs.active.mRel s.lco && decide (s.ssq.phase = .idle)

/-- The join listen begins (R200). -/
def beginListen (s : State) : State := s.setSrs { s.srs with step := .joinListen, joinMs := 0 }

/-- SRS's decision of step 4: the calibration stroke or the join listen (R196, R200). -/
def decideStart (s : State) : State :=
  if calibratesAtStart s then startStroke .calibration none (s.setSrs { s.srs with step := .calibrating }) else beginListen s

/-- Step 4 while the node is up: the decision waits for MSQ's first full pass (R196, R200). While a RESTART waits MSQ and SSQ are
stopped, so there is no pass to wait for and no stroke to ask for: the join listen begins, after which the reply can go and the
wait ends (R188; log entry 8). -/
def calibrationStep (s : State) : State :=
  if blocksRun s then (if s.msq.passDone then decideStart s else s) else beginListen s

/-- START_CALIBRATION_STEP (R196, R200). -/
def execStartCalibrationStep (s : State) : Host.Outcome State Fault Refusal :=
  .next (if lineRuns s = true ∧ s.srs.step = .deciding then calibrationStep s else s)

/-- LIF at the end of the join listen: the LEVEL slot filled, the periodic timer started, access begun (R174). -/
def joinLine (s : State) : State :=
  let s1 := requestLevel s
  s1.setLif { s1.lif with levelMs := some 0, access := true }

/-- SRS starts CPL's cycle timer (R47, R200); not while a RESTART waits, when the blocks other than LIF are stopped (log entry 8).
-/
def startCycle (s : State) : State := if blocksRun s then s.setCpl { s.cpl with cycleMs := some 0 } else s

/-- JOIN_LISTEN_END (R47, R174, R200). -/
def execJoinListenEnd (s : State) : Host.Outcome State Fault Refusal :=
  .next
    (if lineRuns s = true ∧ s.srs.step = .joinListen then
      joinLine (startCycle (s.setSrs { s.srs with step := .running }))
    else s)

end Sys2Proof.Machine
end

