-- ==== Sys2Proof/Machine/StatusOrders.lean ====
section
/-! DEFINITION. The meanings of STATUS (R160, R190), of an order of no known form and of any order while a STORE waits (R177). -/

namespace Sys2Proof.Machine

/-- The marks of STATUS page 0 (R160). -/
def statusMarks (s : State) : Nat :=
  weights [(s.pvw.tableFull, 1), (s.msq.overrun, 2), (s.lif.muted, 4), (s.lif.silent, 8), (s.srs.calibrationPending, 16),
    (!s.lco.known, 32), (s.ssq.heightValid, 64)]

/-- The load result codes (R160). -/
def loadCode : LoadResult → Nat
  | .good => 0
  | .default => 1

/-- The last halt heard, as its two bytes of page 0 (R160). -/
def lastHaltBytes (h : Option LastHalt) : List Byte :=
  match h with
  | some x => [byteOf x.sender, byteOf (haltKindCode x.post.kind * 16 + haltReasonCode x.post.reason : Nat)]
  | none => [0, 0]

/-- STATUS page 0. An absent restored list is the empty set, 0. -/
def page0 (s : State) : List Byte :=
  [byteOf (modeCode (modeOf s.mct)), byteOf (holdCode s.mct.hold), byteOf (safeCode s.mct.safe),
    byteOf (safeCode (s.mct.restored.getD noSafe)), byteOf (statusMarks s), byteOf s.lif.bucket,
    byteOf (loadCode s.srs.loadResult), byteOf (gatePourCode s.fct.gate s.fct.pour)] ++ lastHaltBytes s.mct.lastHalt

/-- STATUS page 1. -/
def page1 (s : State) : List Byte :=
  beBytes 2 s.lif.framingErrors ++ beBytes 2 s.lif.checkErrors ++ beBytes 2 s.lif.overruns ++ beBytes 2 s.lif.garbles ++
    beBytes 2 s.lco.releaseTotal

/-- Numbers of equal width packed, the first in the lowest place. -/
def packed (base : Nat) (digits : List Nat) : Nat := digits.foldr (fun d acc => d + base * acc) 0

/-- STATUS page 2. -/
def page2 (s : State) : List Byte :=
  beBytes 3 (packed 4 ((entriesOf s.msq.table).map fun e => chanStateCode e.state) : Nat) ++
    beBytes 2 (packed 2 ((entriesOf s.msq.table).map fun e => if e.fresh then 1 else 0) : Nat) ++
    [byteOf s.ssq.chatter, byteOf s.ssq.strokeCount] ++ beBytes 3 s.ssq.height

/-- The number of the cap that set Scap (R160). -/
def capCode (r : CplRecord) : Nat :=
  match r.scap with
  | none => 0
  | some _ =>
    if r.cmax = r.scap then 1
    else if r.cfill = r.scap then 2
    else if r.crel = r.scap then 3
    else if r.clead = r.scap then 4
    else 0

/-- STATUS page 3. -/
def page3 (s : State) : List Byte :=
  let r := s.cpl.record
  [byteOf (formCode r.form * 16 + weights [(r.bind, 1), (r.skipped, 2)] : Nat)] ++
    beBytes 2 (clamp (-32767) 32767 (r.offset.getD 0)) ++ beBytes 2 (r.allowance.getD 0) ++ beBytes 2 (r.scap.getD 0) ++
    [byteOf (capCode r)] ++ beBytes 2 (r.error.getD 0)

/-- Channel values, 2 bytes signed each, an absent value as 0 (R160, pages 4 to 6). -/
def channelValues (es : List ChanEntry) : List Byte := es.flatMap fun e => beBytes 2 (e.value.getD 0)

/-- STATUS page 4: J1 to PRES. -/
def page4 (s : State) : List Byte := channelValues ((entriesOf s.msq.table).take 5)

/-- STATUS page 5: FILL to T4. -/
def page5 (s : State) : List Byte := channelValues (((entriesOf s.msq.table).drop 5).take 5)

/-- STATUS page 6: BEAM. -/
def page6 (s : State) : List Byte := channelValues [s.msq.table.beam]

/-- The minute of page 7: a free value where no expiry has been taken since the start (log entry 11). -/
def minuteBytes (s : State) : List Byte :=
  match s.cpl.record.minute with
  | some m => beBytes 3 m
  | none => bytes3 (Config.freeBits 24 s.freeCount)

/-- The spread field of page 7 (R160). -/
def spreadCode : Option Bool → Byte
  | none => 2
  | some true => 1
  | some false => 0

/-- STATUS page 7. -/
def page7 (s : State) : List Byte :=
  let r := s.cpl.record
  minuteBytes s ++ [byteOf (basisCode r.basis)] ++ beBytes 3 (r.href.getD 0) ++ [spreadCode r.spreadExceeded] ++
    beBytes 2 (r.slvl.getD 0)

/-- STATUS page 8. -/
def page8 (s : State) : List Byte :=
  let r := s.cpl.record
  beBytes 2 (r.cmax.getD 0) ++ beBytes 2 (r.cfill.getD 0) ++ beBytes 2 (r.crel.getD 65535) ++ beBytes 2 (r.clead.getD 0) ++
    beBytes 2 (r.sfloor.getD 0)

/-- The fields of a STATUS page (R160); none for a page outside 0 to 8. -/
def statusPage (page : Nat) (s : State) : Option (List Byte) :=
  match page with
  | 0 => some (page0 s)
  | 1 => some (page1 s)
  | 2 => some (page2 s)
  | 3 => some (page3 s)
  | 4 => some (page4 s)
  | 5 => some (page5 s)
  | 6 => some (page6 s)
  | 7 => some (page7 s)
  | 8 => some (page8 s)
  | _ => none

/-- The STATUS order (R190). A free value that its reply may hold is used up. -/
def statusOrder (page : Byte) (s : State) : Answer :=
  match statusPage page.toNat s with
  | some fields => doneWith (page :: fields) (s.setFreeCount (s.freeCount + 1))
  | none => refuse 17 .range s

/-- STATUS (R160, R190). -/
def execStatus (sender target : Nat) (page : Byte) (s : State) : Host.Outcome State Fault Refusal :=
  .next (takeCommand (.status sender target page) ignoreRing (statusOrder page) s)

/-- ORDER_INVALID: an addressed order whose code, variant or length is none of R158 is refused RANGE; a ring-wide one is ignored
(R177). Code and arguments that do spell an order are no such event (log entry 3). -/
def execOrderInvalid (sender target : Nat) (code : Byte) (args : List Byte) (s : State) :
    Host.Outcome State Fault Refusal :=
  .next
    (match orderOf sender target code args with
      | some _ => s
      | none => takeCommand (.orderInvalid sender target code args) ignoreRing (refuse code .range) s)

/-- ORDER_WHILE_STORING: any order while the store-waiting mark is set: an addressed one is refused BUSY, a ring-wide one is
ignored (R177). -/
def execOrderWhileStoring (sender target : Nat) (code : Byte) (args : List Byte) (s : State) :
    Host.Outcome State Fault Refusal :=
  .next
    (if s.ors.storeWaiting.isSome then
      takeCommand (.orderWhileStoring sender target code args) ignoreRing (refuse code .busy) s
    else s)

end Sys2Proof.Machine
end

