-- ==== Sys2Proof/Machine/StrokeEvents.lean ====
section
/-! DEFINITION. The meanings of CPL's expiry, SSQ's times and inputs, MSQ's conversions and LDR's blink timer (R47 to R60, R65 to
R73, R120, R121, R203). -/

namespace Sys2Proof.Machine

/-! ### The cycle expiry (R47, R48, R50, R52, R60) -/

/-- A skipped expiry: only the skipped mark and the minute change (R48). -/
def skipExpiry (s : State) : State :=
  s.setCpl { s.cpl with record := { s.cpl.record with skipped := true, minute := some s.lco.runClock } }

/-- SPREAD put on or taken off by a spread check (R52). -/
def applySpread (x : Option Bool) (s : State) : State :=
  match x with
  | some true => addSafe .spread s
  | some false => removeSafe .spread s
  | none => s

/-- The kind of stroke an allowance of this form starts (R65). -/
def strokeKindOf (form : Form) : StrokeKind :=
  match form with
  | .creep => .creep
  | _ => .level

/-- An allowance handed to SSQ (R65, R83). -/
def handAllowance (r : CplRecord) (s : State) : State :=
  if 0 < r.allowance.getD 0 then startStroke (strokeKindOf r.form) r.allowance s else nullCycle s

/-- An expiry that is not skipped, whose record is `r` (R50, R52, R59, R60). -/
def computeExpiry (r : CplRecord) (s : State) : State :=
  let s1 := applySpread r.spreadExceeded s
  let s2 := s1.setCpl { s1.cpl with record := r }
  handAllowance r (raiseBindNeed s2)

/-- CYCLE_EXPIRY (R47, R48). -/
def execCycleExpiry (s : State) : Host.Outcome State Fault Refusal :=
  .next
    (if blocksRun s = true ∧ s.cpl.cycleMs.isSome = true then
      let s1 := s.setCpl { s.cpl with cycleMs := some 0 }
      if s1.ssq.phase = .idle then computeExpiry (currentRecord s1) s1 else skipExpiry s1
    else s)

/-! ### The phases' times (R66, R69 to R73) -/

/-- A 10 ms period begins: the duty last written comes into force, and the ramp's next value is written (R66, R69). -/
def rampSsq (q : Ssq) : Ssq :=
  { q with
    dutyInForce := q.dutyWritten
    dutyWritten := if q.phase = .pressurize then min 100 (q.dutyWritten + 10) else q.dutyWritten }

/-- RAMP_PERIOD (R66, R69). -/
def execRampPeriod (s : State) : Host.Outcome State Fault Refusal :=
  .next (if blocksRun s then s.setSsq (rampSsq s.ssq) else s)

/-- PRESSURIZE_TIMEOUT (R69). -/
def execPressurizeTimeout (s : State) : Host.Outcome State Fault Refusal :=
  .next
    (if blocksRun s = true ∧ s.ssq.phase = .pressurize then
      s.setSsq (leavePressurize (withFault .noPressure) s.ssq)
    else s)

/-- LIFT_TIMEOUT (R70). -/
def execLiftTimeout (s : State) : Host.Outcome State Fault Refusal :=
  .next
    (if blocksRun s = true ∧ s.ssq.phase = .lift then
      s.setSsq (leaveLift (liftTimeoutMs s.srs.active) (withFault .stall) s.ssq)
    else s)

/-- TOP_LIMIT_CAPTURE (R70, R71). -/
def execTopLimitCapture (s : State) : Host.Outcome State Fault Refusal :=
  .next
    (if blocksRun s then
      if s.ssq.phase = .lift then s.setSsq (leaveLift (liftElapsed s) (withRiseEnd .full) s.ssq)
      else s.setSsq { s.ssq with chatter := satAdd 255 s.ssq.chatter 1 }
    else s)

/-- The TOP trigger of the stroke in flight fired (R72). -/
def fireTop (st : Stroke) (s : State) : State :=
  fireTrigger .top (s.setSsq { s.ssq with stroke := some { st with topFired := true } })

/-- TOP_TRIGGER (R72). -/
def execTopTrigger (s : State) : Host.Outcome State Fault Refusal :=
  .next
    (match s.ssq.stroke with
      | some st => if blocksRun s = true ∧ s.ssq.phase = .topdwell ∧ st.topFired = false then fireTop st s else s
      | none => s)

/-- The entry to RELEASE (R72, R73). -/
def enterRelease (now : Nat) (q : Ssq) : Ssq :=
  { q with
    phase := .release
    releaseOn := true
    stroke := q.stroke.map fun st => { st with releaseEntry := some now } }

/-- TOPDWELL_END (R72, R73). -/
def execTopdwellEnd (s : State) : Host.Outcome State Fault Refusal :=
  .next (if blocksRun s = true ∧ s.ssq.phase = .topdwell then s.setSsq (enterRelease s.nowMs s.ssq) else s)

/-- A stroke whose release ran into its timeout (R73). -/
def releaseTimedOut (st : Stroke) : Stroke := withRelease 5000 (withFault .noReturn st)

/-- RELEASE_TIMEOUT (R73). -/
def execReleaseTimeout (s : State) : Host.Outcome State Fault Refusal :=
  .next (if blocksRun s = true ∧ s.ssq.phase = .release then enterSettle releaseTimedOut s else s)

/-! ### The coils (R68) -/

/-- The last check of a coil recorded (R68). -/
def coilChecked (coil : Coil) (isOpen : Bool) (q : Ssq) : Ssq :=
  match coil with
  | .lift => { q with liftCoilOpen := isOpen }
  | .release => { q with releaseCoilOpen := isOpen }

/-- COIL_CHECK (R68). -/
def execCoilCheck (coil : Coil) (isOpen : Bool) (s : State) : Host.Outcome State Fault Refusal :=
  .next
    (if blocksRun s then
      let s1 := s.setSsq (coilChecked coil isOpen s.ssq)
      if isOpen then addSafe .valve s1 else s1
    else s)

/-! ### MSQ and LDR (R120, R121, R203) -/

/-- CONVERSION_COMPLETE (R117 to R130). MSQ converts while the blocks run (R133, R201). -/
def execConversionComplete (raw : BitVec 12) (s : State) : Host.Outcome State Fault Refusal :=
  .next (if blocksRun s then completeConversion raw.toNat s else s)

/-- BEAM_PRESENT_CHANGE (R121). -/
def execBeamPresentChange (on : Bool) (s : State) : Host.Outcome State Fault Refusal :=
  let s1 := s.setPins { s.pins with beamPresent := on }
  .next (if blocksRun s = true ∧ on ≠ s.pins.beamPresent then s1.setMsq (beamChangedMsq on s1.msq) else s1)

/-- The blink timer after a half of the slow or the fast phase (R203). -/
def blinked (fast : Bool) (d : Ldr) : Ldr :=
  if fast then { d with fastOn := !d.fastOn, fastMs := 0 } else { d with slowOn := !d.slowOn, slowMs := 0 }

/-- BLINK_PHASE (R203): the blink timer runs while the outputs are driven (R204). -/
def execBlinkPhase (fast : Bool) (s : State) : Host.Outcome State Fault Refusal :=
  .next (if s.srs.life = .up ∧ s.ldr.lit = true then s.setLdr (blinked fast s.ldr) else s)

end Sys2Proof.Machine
end

