-- ==== Sys2Proof/Machine/Dispatch.lean ====
section
/-! DEFINITION. Which meaning each command has: one arm for each row of spec/opcode_table.json. -/

namespace Sys2Proof.Machine

/-- The effect of a command on everything but the queue. -/
def exec (i : Instr) (s : State) : Host.Outcome State Fault Refusal :=
  match i with
  | .climb sender target => Sys2Proof.Machine.execClimb sender target s
  | .hold sender target => Sys2Proof.Machine.execHold sender target s
  | .setup sender target => Sys2Proof.Machine.execSetup sender target s
  | .clear sender target => Sys2Proof.Machine.execClear sender target s
  | .trimUp sender target => Sys2Proof.Machine.execTrimUp sender target s
  | .trimDown sender target => Sys2Proof.Machine.execTrimDown sender target s
  | .trimSet sender target value => Sys2Proof.Machine.execTrimSet sender target value s
  | .heightSet sender target value => Sys2Proof.Machine.execHeightSet sender target value s
  | .heightAdopt sender target => Sys2Proof.Machine.execHeightAdopt sender target s
  | .planeSet sender target value => Sys2Proof.Machine.execPlaneSet sender target value s
  | .planeWithdraw sender target => Sys2Proof.Machine.execPlaneWithdraw sender target s
  | .window sender target collection first last => Sys2Proof.Machine.execWindow sender target collection first last s
  | .read sender target part => Sys2Proof.Machine.execRead sender target part s
  | .amendBegin sender target => Sys2Proof.Machine.execAmendBegin sender target s
  | .amend sender target maturity => Sys2Proof.Machine.execAmend sender target maturity s
  | .setting sender target field value => Sys2Proof.Machine.execSetting sender target field value s
  | .defaults sender target => Sys2Proof.Machine.execDefaults sender target s
  | .store sender target => Sys2Proof.Machine.execStore sender target s
  | .calibrate sender target => Sys2Proof.Machine.execCalibrate sender target s
  | .restart sender target => Sys2Proof.Machine.execRestart sender target s
  | .status sender target page => Sys2Proof.Machine.execStatus sender target page s
  | .orderInvalid sender target code args => Sys2Proof.Machine.execOrderInvalid sender target code args s
  | .orderWhileStoring sender target code args => Sys2Proof.Machine.execOrderWhileStoring sender target code args s
  | .postReceived bytes => Sys2Proof.Machine.execPostReceived bytes s
  | .framingError quiet => Sys2Proof.Machine.execFramingError s quiet
  | .levelTaken sender post => Sys2Proof.Machine.execLevelTaken sender post s
  | .claimTaken sender post => Sys2Proof.Machine.execClaimTaken sender post s
  | .gateTaken sender post => Sys2Proof.Machine.execGateTaken sender post s
  | .haltTaken sender post => Sys2Proof.Machine.execHaltTaken sender post s
  | .claimLapse station => Sys2Proof.Machine.execClaimLapse station s
  | .peerStale station => Sys2Proof.Machine.execPeerStale station s
  | .peerDrop station => Sys2Proof.Machine.execPeerDrop station s
  | .access quiet => Sys2Proof.Machine.execAccess quiet s
  | .garble => Sys2Proof.Machine.execGarble s
  | .postSent => Sys2Proof.Machine.execPostSent s
  | .muteLeave => Sys2Proof.Machine.execMuteLeave s
  | .levelTimer => Sys2Proof.Machine.execLevelTimer s
  | .joinListenEnd => Sys2Proof.Machine.execJoinListenEnd s
  | .tick => Sys2Proof.Machine.execTick s
  | .pourDurationCount => Sys2Proof.Machine.execPourDurationCount s
  | .cycleExpiry => Sys2Proof.Machine.execCycleExpiry s
  | .rampPeriod => Sys2Proof.Machine.execRampPeriod s
  | .pressurizeTimeout => Sys2Proof.Machine.execPressurizeTimeout s
  | .liftTimeout => Sys2Proof.Machine.execLiftTimeout s
  | .topLimitCapture => Sys2Proof.Machine.execTopLimitCapture s
  | .topTrigger => Sys2Proof.Machine.execTopTrigger s
  | .topdwellEnd => Sys2Proof.Machine.execTopdwellEnd s
  | .releaseTimeout => Sys2Proof.Machine.execReleaseTimeout s
  | .coilCheck coil isOpen => Sys2Proof.Machine.execCoilCheck coil isOpen s
  | .conversionComplete raw => Sys2Proof.Machine.execConversionComplete raw s
  | .beamPresentChange on => Sys2Proof.Machine.execBeamPresentChange on s
  | .gateOpenLimit on => Sys2Proof.Machine.execGateOpenLimit on s
  | .gateClosedLimit on => Sys2Proof.Machine.execGateClosedLimit on s
  | .gateTravelTimeout => Sys2Proof.Machine.execGateTravelTimeout s
  | .settleDecision => Sys2Proof.Machine.execSettleDecision s
  | .backoffEnd => Sys2Proof.Machine.execBackoffEnd s
  | .pourTimerSecond => Sys2Proof.Machine.execPourTimerSecond s
  | .estopChange active => Sys2Proof.Machine.execEstopChange active s
  | .keyChange contacts => Sys2Proof.Machine.execKeyChange contacts s
  | .storeWriteDone => Sys2Proof.Machine.execStoreWriteDone s
  | .powerFail holdUp => Sys2Proof.Machine.execPowerFail holdUp s
  | .outageMinute => Sys2Proof.Machine.execOutageMinute s
  | .retentionLost => Sys2Proof.Machine.execRetentionLost s
  | .start inputs heard => Sys2Proof.Machine.execStart inputs heard s
  | .startCalibrationStep => Sys2Proof.Machine.execStartCalibrationStep s
  | .blinkPhase fast => Sys2Proof.Machine.execBlinkPhase fast s
  | .startBit quiet => Sys2Proof.Machine.execStartBit quiet s

end Sys2Proof.Machine
end

