-- ==== Sys2Proof/Machine/Time.lean ====
section
/-! DEFINITION. One millisecond passing: what the node's timers do on a step with no command waiting (log entry 1). A timer that
has run out stands at its end until its own command is taken. -/

namespace Sys2Proof.Machine

/-- A timer one millisecond on, standing at its end. -/
def ticked (limit n : Nat) : Nat := satAdd limit n 1

/-- The quiet time after `us` microseconds with no start bit: what is left of a byte runs off first (R155). -/
def quietPassed (us : Nat) (l : Lif) : Lif :=
  { l with quietUs := l.quietUs + (us - l.byteLeftUs), byteLeftUs := l.byteLeftUs - us }

/-- What is left of the byte being sent after `us` microseconds of an own post, whose bytes follow one another without a gap, each
opened by its start bit (R155). -/
def sendingPassed (bitUs us : Nat) (l : Lif) : Lif :=
  { l with byteLeftUs := 10 * bitUs - (10 * bitUs - l.byteLeftUs + us) % (10 * bitUs) }

/-- LIF's timers: the quiet time while this node does not send, with the end of a framing error's wait, the periodic LEVEL timer, and
the rejoin timer in MUTE (R155, R161, R167, R172). -/
def lifPassed (bitUs : Nat) (l : Lif) : Lif :=
  let l1 := if l.transmitter.isSome then sendingPassed bitUs 1000 l else errorPassed bitUs (quietPassed 1000 l)
  { l1 with
    levelMs := l1.levelMs.map (ticked 500)
    rejoinMs := if l1.muted then ticked 65535 l1.rejoinMs else l1.rejoinMs }

/-- A peer entry's age and its claim's (R28, R34, R35). -/
def peerPassed (p : Peer) : Peer :=
  { p with ageMs := ticked 30000 p.ageMs, claim := p.claim.map fun c => { c with ageMs := ticked 1000 c.ageMs } }

/-- FCT's timers, each while it runs (R92). -/
def fctPassed (c : Settings) (f : Fct) : Fct :=
  { f with
    travelMs := if f.gate = .opening ∨ f.gate = .closing then ticked (c.gateTravel * 1000).toNat f.travelMs else f.travelMs
    settleMs := if (f.ownClaim.map OwnClaim.sent).getD false then ticked 1000 f.settleMs else f.settleMs
    backoffMs := if f.pour = .backoff then ticked f.backoffLength f.backoffMs else f.backoffMs }

/-- LDR's blink timer (R203). -/
def ldrPassed (d : Ldr) : Ldr :=
  if d.lit then { d with slowMs := ticked 500 d.slowMs, fastMs := ticked 125 d.fastMs } else d

/-- The join listen's time, while it lasts (R200). -/
def srsPassed (r : Srs) : Srs := if r.step = .joinListen then { r with joinMs := ticked 2000 r.joinMs } else r

/-- The timers of the blocks other than LIF. -/
def blocksPassed (s : State) : State :=
  { s with
    pvw := { s.pvw with peers := s.pvw.peers.map peerPassed }
    lco := { s.lco with tickMs := ticked 60000 s.lco.tickMs }
    cpl := { s.cpl with cycleMs := s.cpl.cycleMs.map (ticked (s.srs.active.cyclePeriod * 1000).toNat) }
    fct := fctPassed s.srs.active s.fct
    ldr := ldrPassed s.ldr
    nowMs := s.nowMs + 1 }

/-- One millisecond passes (log entry 1): nothing while the node is stopped, LIF's timers and the join listen alone while a RESTART
waits (R201). -/
def idleTick (s : State) : State :=
  let s1 := if lineRuns s then (s.setLif (lifPassed (bitTimeUs s.srs.active) s.lif)).setSrs (srsPassed s.srs) else s
  if blocksRun s then blocksPassed s1 else s1

end Sys2Proof.Machine
end

