-- ==== Sys2Proof/WellFormed.lean ====
section
/-! DEFINITION. Which commands can be written: station numbers of six bits (R156), post fields in the ranges of R157, ORDER posts
of a length R156 allows, and an invalid order that is no order of R158. -/

namespace Sys2Proof

/-- A station number as a post carries it (R156). -/
def stationFits (n : Nat) : Bool := decide (n ≤ 63)

/-- Sender and target of an ORDER post (R156, R158). -/
def stationsFit (sender target : Nat) : Bool := stationFits sender && stationFits target

/-- A need (R157). -/
def needFits (n : Int) : Bool := decide (0 ≤ n ∧ n ≤ 15000)

/-- The fields of a LEVEL post (R157). -/
def LevelPost.fits (p : LevelPost) : Bool :=
  decide (p.sector ≤ 47) && decide (0 ≤ p.height ∧ p.height ≤ maxHeight) && decide (p.strokeCount ≤ 255) && needFits p.need

/-- The fields of a CLAIM post (R157). -/
def ClaimPost.fits (p : ClaimPost) : Bool := needFits p.need && decide (p.number ≤ 255)

/-- The fields of a GATE post (R157). -/
def GatePost.fits (p : GatePost) : Bool := needFits p.needAtOpen

/-- A post's content can be sent: its fields in the ranges of R157, its payload of a length R156 allows. -/
def PostBody.fits (b : PostBody) : Bool :=
  match b with
  | .level p => p.fits
  | .claim p => p.fits
  | .gate p => p.fits
  | .halt _ => true
  | .order payload => decide (2 ≤ payload.length ∧ payload.length ≤ 12)
  | .reply payload => decide (3 ≤ payload.length ∧ payload.length ≤ 14)

/-- The argument bytes fit an ORDER post (R156: at most 12 payload bytes, of which two are the target and the code). -/
def argsFit (args : List Byte) : Bool := decide (args.length ≤ 10)

/-- The command is well formed. -/
def Instr.wellFormed (i : Instr) : Bool :=
  match i with
  | .climb s t => stationsFit s t
  | .hold s t => stationsFit s t
  | .setup s t => stationsFit s t
  | .clear s t => stationsFit s t
  | .trimUp s t => stationsFit s t
  | .trimDown s t => stationsFit s t
  | .trimSet s t _ => stationsFit s t
  | .heightSet s t _ => stationsFit s t
  | .heightAdopt s t => stationsFit s t
  | .planeSet s t _ => stationsFit s t
  | .planeWithdraw s t => stationsFit s t
  | .window s t _ _ _ => stationsFit s t
  | .read s t _ => stationsFit s t
  | .amendBegin s t => stationsFit s t
  | .amend s t _ => stationsFit s t
  | .setting s t _ _ => stationsFit s t
  | .defaults s t => stationsFit s t
  | .store s t => stationsFit s t
  | .calibrate s t => stationsFit s t
  | .restart s t => stationsFit s t
  | .status s t _ => stationsFit s t
  | .orderInvalid s t code args => stationsFit s t && argsFit args && (Machine.orderOf s t code args).isNone
  | .orderWhileStoring s t _ args => stationsFit s t && argsFit args
  | .postReceived _ => true
  | .framingError _ => true
  | .levelTaken s p => stationFits s && p.fits
  | .claimTaken s p => stationFits s && p.fits
  | .gateTaken s p => stationFits s && p.fits
  | .haltTaken s _ => stationFits s
  | .claimLapse s => stationFits s
  | .peerStale s => stationFits s
  | .peerDrop s => stationFits s
  | .access _ => true
  | .garble => true
  | .postSent => true
  | .muteLeave => true
  | .levelTimer => true
  | .joinListenEnd => true
  | .tick => true
  | .pourDurationCount => true
  | .cycleExpiry => true
  | .rampPeriod => true
  | .pressurizeTimeout => true
  | .liftTimeout => true
  | .topLimitCapture => true
  | .topTrigger => true
  | .topdwellEnd => true
  | .releaseTimeout => true
  | .coilCheck _ _ => true
  | .conversionComplete _ => true
  | .beamPresentChange _ => true
  | .gateOpenLimit _ => true
  | .gateClosedLimit _ => true
  | .gateTravelTimeout => true
  | .settleDecision => true
  | .backoffEnd => true
  | .pourTimerSecond => true
  | .estopChange _ => true
  | .keyChange _ => true
  | .storeWriteDone => true
  | .powerFail _ => true
  | .outageMinute => true
  | .retentionLost => true
  | .start _ _ => true
  | .startCalibrationStep => true
  | .blinkPhase _ => true
  | .startBit _ => true

end Sys2Proof
end

