-- ==== Sys2Proof/Safety.lean ====
section
/-! DEFINITION. What the manual promises of the node's state at every moment, in the terms the claims use. -/

namespace Sys2Proof.Machine

/-! ### What holds at every moment -/

/-- The capacities the manual gives the node's collections: the layer column (R1), the peer table (R27), the stroke history (R86),
the stroke-fault window (R77) and the receive FIFO (R164); what the retention area holds of them as well (R198). -/
structure Capacities (s : State) : Prop where
  column : s.lco.column.length ≤ 12
  peers : s.pvw.peers.length ≤ 47
  history : s.ssq.history.length ≤ 8
  window : s.mct.window.length ≤ 10
  fifo : s.lif.fifo.length ≤ 2
  saved : ∀ a, s.srs.area = some a → a.column.length ≤ 12 ∧ a.history.length ≤ 8 ∧ a.window.length ≤ 10

/-- What the manual promises of LIF's garble bucket and MUTE (R171): the bucket stays within 0 to 103, it is below 96 whenever LIF
is not in MUTE, and no post is in the transmitter in MUTE. -/
structure GarbleBounds (l : Lif) : Prop where
  bucket : l.bucket ≤ 103
  free : l.muted = false → l.bucket < 96
  quiet : l.muted = true → l.transmitter = none

/-- The ages of the posts (R166): every post that waits, and the one in the transmitter, was queued before the next one will be. -/
structure AgesOrdered (l : Lif) : Prop where
  halt : ∀ x, l.haltSlot = some x → x.stamp < l.nextStamp
  claim : ∀ x, l.claimSlot = some x → x.stamp < l.nextStamp
  gate : ∀ x, l.gateSlot = some x → x.stamp < l.nextStamp
  level : ∀ x, l.levelSlot = some x → x.stamp < l.nextStamp
  reply : ∀ x, l.replySlot = some x → x.stamp < l.nextStamp
  transmitter : ∀ x, l.transmitter = some x → x.stamp < l.nextStamp

/-- The writes of the stored block (R195, R198, R201): the stored block is absent, neither old nor new, exactly while a write is in
progress; no write waits without one; and none is in progress in a node that is not up. -/
structure WritesInOrder (r : Srs) : Prop where
  absent : r.stored = none ↔ r.write ≠ none
  queue : r.write = none → r.writesWaiting = []
  up : r.life ≠ .up → r.write = none

/-- The valves as the phases drive them (R66, R67): the lift enable is given in PRESSURIZE and LIFT alone, the release valve is
turned on in RELEASE alone. -/
structure ValvesInPhase (q : Ssq) : Prop where
  lift : q.liftEnable = true → q.phase = .pressurize ∨ q.phase = .lift
  release : q.releaseOn = true → q.phase = .release

/-- The ranges of own height (R80) and of the trim (R61), in the node and in what the retention area holds. -/
structure HeightAndTrimRanges (s : State) : Prop where
  height : 0 ≤ s.ssq.height ∧ s.ssq.height ≤ 1000000
  trim : -32 ≤ s.cpl.trim ∧ s.cpl.trim ≤ 31
  saved : ∀ a, s.srs.area = some a → 0 ≤ a.height ∧ a.height ≤ 1000000 ∧ -32 ≤ a.trim ∧ a.trim ≤ 31

/-- A column as R1 and R2 describe it: at most 12 records, each record's bottom the top of the one before it, bottoms at or below
tops, heights and maturities in their ranges, the POURING record the youngest, and no id twice. -/
structure ColumnInOrder (col : List Layer) : Prop where
  size : col.length ≤ 12
  contiguous : ∀ i a b, col[i]? = some a → col[i + 1]? = some b → b.bottom = a.top
  heights : ∀ r ∈ col, 0 ≤ r.bottom ∧ r.bottom ≤ r.top ∧ r.top ≤ 1000000
  maturities : ∀ r ∈ col, r.maturity ≤ 9999999
  pouring : ∀ i r, col[i]? = some r → r.state = .pouring → i + 1 = col.length
  distinct : (col.map Layer.id).Nodup
  ids : ∀ r ∈ col, r.id < 65536

/-- The column in order, in the node and in what the retention area holds of it, where no record is POURING (R21), with the id
counter and own height in their ranges. -/
structure ColumnKept (s : State) : Prop where
  order : ColumnInOrder s.lco.column
  counter : s.lco.nextId < 65536
  height : 0 ≤ s.ssq.height ∧ s.ssq.height ≤ 1000000
  saved :
    ∀ a, s.srs.area = some a →
      ColumnInOrder a.column ∧ (∀ r ∈ a.column, r.state ≠ .pouring) ∧ 0 ≤ a.height ∧ a.height ≤ 1000000

/-- The peer table as R27, R28, R31 and R37 describe it: in sector order, no station twice, every station 1 to 62 and not the own
one, every sector one of the ring's, every height in its range; and every waiting command well formed, so that no LEVEL post
outside R157 is still to be taken. -/
structure PeersInOrder (s : State) : Prop where
  order : s.pvw.peers.Pairwise fun a b => a.sector < b.sector ∨ (a.sector = b.sector ∧ a.station < b.station)
  distinct : (s.pvw.peers.map Peer.station).Nodup
  stations : ∀ p ∈ s.pvw.peers, 1 ≤ p.station ∧ p.station ≤ 62 ∧ p.station ≠ ownStation s
  sectors : ∀ p ∈ s.pvw.peers, p.sector < ringOf s.srs.active
  heights : ∀ p ∈ s.pvw.peers, 0 ≤ p.height ∧ p.height ≤ 1000000
  commands : ∀ c ∈ s.pending, c.wellFormed = true

/-! ### What an event leaves alone -/

/-- The parts of the state that an event of the feed, the modes or the line leaves alone: the peer table, the planner, the
settings, the lamps, the inputs and the model's own two counters. -/
structure SameElsewhere (s t : State) : Prop where
  pvw : t.pvw = s.pvw
  cpl : t.cpl = s.cpl
  srs : t.srs = s.srs
  ldr : t.ldr = s.ldr
  pins : t.pins = s.pins
  nowMs : t.nowMs = s.nowMs
  freeCount : t.freeCount = s.freeCount
  pending : t.pending = s.pending

/-! ### The peer view, in the terms of R38, R41 and R43 -/

/-- An entry of the table that qualifies: live, of valid height, and unclashed (R35, R38, R41). -/
structure Qualifying (s : State) (p : Peer) : Prop where
  entry : p ∈ s.pvw.peers
  live : p.ageMs < 2000
  valid : p.heightValid = true
  peers : ∀ q ∈ s.pvw.peers, q.station ≠ p.station → q.sector ≠ p.sector
  own : ownStation s = 0 ∨ sectorOf s.srs.active ≠ p.sector

/-- What a search finds whose sector at each distance is `sectorAt`: a qualifying entry of the first sector that holds one, up to
the distance min(6, N − 1) (R41). -/
def FoundBy (sectorAt : Nat → Nat) (s : State) (p : Peer) : Prop :=
  ∃ d, 1 ≤ d ∧ d ≤ 6 ∧ d < ringOf s.srs.active ∧ Qualifying s p ∧ p.sector = sectorAt d ∧
    ∀ nearer, 1 ≤ nearer → nearer < d → ∀ q, Qualifying s q → q.sector ≠ sectorAt nearer

/-- The left search, below the own sector around the ring (R41). -/
def FoundLeft (s : State) (p : Peer) : Prop :=
  FoundBy (fun d => (sectorOf s.srs.active + ringOf s.srs.active - d) % ringOf s.srs.active) s p

/-- The right search, above the own sector around the ring (R41). -/
def FoundRight (s : State) (p : Peer) : Prop :=
  FoundBy (fun d => (sectorOf s.srs.active + d) % ringOf s.srs.active) s p

/-- The content that a LEVEL post latches, field by field from its owner (R43). -/
def levelNow (s : State) : LevelPost :=
  { sector := sectorOf s.srs.active
    mode := modeOf s.mct
    flags :=
      { heightValid := s.ssq.heightValid
        bind := s.cpl.record.bind
        settling := s.mct.settling
        channelFault :=
          [s.msq.table.j1, s.msq.table.j2, s.msq.table.j3, s.msq.table.j4, s.msq.table.pres, s.msq.table.fill, s.msq.table.t1,
            s.msq.table.t2, s.msq.table.t3, s.msq.table.t4, s.msq.table.beam].any fun e => decide (e.state = .faulted)
        laserDisagree := s.ssq.laserDisagree
        heightLimit := s.ssq.heightLimit }
    height := s.ssq.height
    strokeCount := s.ssq.strokeCount
    gate := s.fct.gate
    pour := s.fct.pour
    need := if s.fct.pour = .want ∨ s.fct.pour = .claiming ∨ s.fct.pour = .backoff then fillGap s else 0 }

/-! ### The bytes of posts, records and pages, in the terms of R157, R159 and R160 -/

/-- A flag's weight in a sum. -/
def bit (on : Bool) (weight : Nat) : Nat := if on then weight else 0

/-- The mode numbers (R157). -/
def modeNumber (m : Mode) : Nat := match m with | .setup => 0 | .climb => 1 | .hold => 2 | .safe => 3

/-- The gate state numbers (R157). -/
def gateNumber (g : GateState) : Nat :=
  match g with | .closed => 0 | .opening => 1 | .opened => 2 | .closing => 3 | .jammed => 4

/-- Gate state × 16 + pour state (R157). -/
def gatePourNumber (g : GateState) (p : PourState) : Nat :=
  gateNumber g * 16 +
    match p with | .dry => 0 | .want => 1 | .claiming => 2 | .backoff => 3 | .pouring => 4 | .ending => 5

/-- The check of R156 over these bytes: a register of 16 ones takes their bits, each byte least significant bit first; each bit is added
to the coefficient of x^15, the register shifted toward it, and the rest of the generator added where the coefficient that left
was 1. -/
def checkOf (bytes : List Byte) : BitVec 16 :=
  (bytes.flatMap fun b => (List.range 8).map b.getLsbD).foldl
    (fun r b => if r.getLsbD 15 ≠ b then (r <<< 1) ^^^ (1#16 <<< 15 ||| 1#16 <<< 2 ||| 1#16) else r <<< 1)
    (BitVec.allOnes 16)

/-- The ten payload bytes of a LEVEL post (R157). -/
def levelBytes (p : LevelPost) : List Byte :=
  [byteOf p.sector, byteOf (modeNumber p.mode),
    byteOf
      (bit p.flags.heightValid 1 + bit p.flags.bind 2 + bit p.flags.settling 4 + bit p.flags.channelFault 8 +
        bit p.flags.laserDisagree 16 + bit p.flags.heightLimit 32 : Nat)] ++
    beBytes 3 p.height ++ [byteOf p.strokeCount, byteOf (gatePourNumber p.gate p.pour)] ++ beBytes 2 p.need

/-- The kind byte of a post (R156). -/
def kindNumber (b : PostBody) : Nat :=
  match b with | .level _ => 1 | .claim _ => 2 | .gate _ => 3 | .halt _ => 4 | .order _ => 5 | .reply _ => 6

/-- The kind byte is one of the six, and the length one that its kind allows (R156, R162). -/
def KindAllowed (kind len : Nat) : Prop :=
  (kind = 1 ∧ len = 10) ∨ (kind = 2 ∧ len = 3) ∨ (kind = 3 ∧ len = 4) ∨ (kind = 4 ∧ len = 2) ∨
    (kind = 5 ∧ 2 ≤ len ∧ len ≤ 12) ∨ (kind = 6 ∧ 3 ≤ len ∧ len ≤ 14)

/-- A field of a LEVEL, CLAIM, GATE or HALT post of this payload holds a value that R157 does not list (R162). -/
def FieldsOutside (kind : Nat) (payload : List Byte) : Prop :=
  match kind, payload with
  | 1, [sector, mode, flags, h2, h1, h0, _, gatePour, n1, n0] =>
    47 < sector.toNat ∨ 3 < mode.toNat ∨ 63 < flags.toNat ∨
      1000000 < h2.toNat * 65536 + h1.toNat * 256 + h0.toNat ∨ 4 < gatePour.toNat / 16 ∨ 5 < gatePour.toNat % 16 ∨
      15000 < n1.toNat * 256 + n0.toNat
  | 2, [n1, n0, _] => 15000 < n1.toNat * 256 + n0.toNat
  | 3, [gate, n1, n0, mark] => 4 < gate.toNat ∨ 15000 < n1.toNat * 256 + n0.toNat ∨ 1 < mark.toNat
  | 4, [halt, reason] => halt.toNat = 0 ∨ 2 < halt.toNat ∨ reason.toNat = 0 ∨ 6 < reason.toNat
  | _, _ => False

/-- The two parts of a layer record (R160). -/
def LayerShown (part : Nat) (r : Layer) (fields : List Byte) : Prop :=
  (part = 0 →
      fields =
        beBytes 2 r.id ++
          [byteOf (match r.state with | .pouring => 0 | .placed => 1 | .exiting => 2),
            byteOf
              (bit r.flags.merged 1 + bit r.flags.synthetic 2 + bit r.flags.yieldEnded 4 + bit r.flags.longPour 8 +
                bit r.flags.fallbackUsed 16 + bit r.flags.amended 32 + bit r.flags.outageCredited 64 : Nat)] ++
          beBytes 3 r.bottom ++ beBytes 3 r.top) ∧
    (part = 1 → fields = beBytes 2 r.id ++ beBytes 3 r.maturity ++ beBytes 3 r.pourStart ++ beBytes 2 (r.duration.getD 0 : Nat))

/-- The two parts of a peer entry (R160). The need and the number of an absent claim are free (log entry 11). -/
def PeerShown (part : Nat) (s : State) (p : Peer) (fields : List Byte) : Prop :=
  (part = 0 →
      ∃ clash : Bool,
        (clash = true ↔
          (∃ q ∈ s.pvw.peers, q.station ≠ p.station ∧ q.sector = p.sector) ∨
            (ownStation s ≠ 0 ∧ sectorOf s.srs.active = p.sector)) ∧
        fields =
          [byteOf p.station, byteOf p.sector] ++ beBytes 3 p.height ++
            [byteOf
                (bit p.heightValid 1 + bit (decide (p.ageMs < 2000)) 2 + bit clash 4 + bit p.claim.isSome 8 +
                  bit p.needAtOpen.isSome 16 : Nat),
              byteOf (modeNumber p.mode), byteOf (gatePourNumber p.gate p.pour)] ++
            beBytes 2 p.need) ∧
    (part = 1 →
      (∀ c, p.claim = some c →
        fields =
          [byteOf p.station, byteOf p.strokeCount] ++ beBytes 2 (p.needAtOpen.getD 0) ++ beBytes 2 c.need ++
            [byteOf c.number] ++ beBytes 2 p.ageMs ++ [byteOf (c.ageMs / 10 : Nat)]) ∧
        (p.claim = none →
          ∃ high low number,
            fields =
              [byteOf p.station, byteOf p.strokeCount] ++ beBytes 2 (p.needAtOpen.getD 0) ++ [high, low, number] ++
                beBytes 2 p.ageMs ++ [0]))

/-- The two parts of a stroke history record (R160). -/
def StrokeShown (part : Nat) (r : HistoryRec) (fields : List Byte) : Prop :=
  (part = 0 →
      fields =
        [byteOf r.number] ++ beBytes 2 (r.allowance.getD 0) ++ beBytes 2 r.climbed ++ beBytes 2 r.liftMs ++
          beBytes 2 r.releaseMs ++
          [byteOf
            (match r.cause with
              | .target => 1
              | .full => 2
              | .skew => 3
              | .cut => 4
              | .stall => 5
              | .noPressure => 6
              | .noReturn => 7
              | .transducer => 8
              | .powerCut => 9
              | .calibration => 10)]) ∧
    (part = 1 →
      fields =
        [byteOf r.number, byteOf (bit r.creep 1 + bit r.substituted 2 + bit r.laser.isSome 4 : Nat)] ++
          beBytes 2 (r.laser.getD 0))

/-- What a READ shows of the record at a position (R160, R182). -/
def RecordShown (c : Collection) (position part : Nat) (s : State) (fields : List Byte) : Prop :=
  match c with
  | .layers => ∃ r, s.lco.column[position]? = some r ∧ LayerShown part r fields
  | .peers => ∃ p, s.pvw.peers[position]? = some p ∧ PeerShown part s p fields
  | .strokes => ∃ r, s.ssq.history[position]? = some r ∧ StrokeShown part r fields

/-- The numbers of the refusal reasons (R159). -/
def reasonNumber (why : Reason) : Nat :=
  match why with
  | .mode => 1
  | .key => 2
  | .range => 3
  | .busy => 4
  | .noHeight => 5
  | .noNeighbour => 6
  | .causePresent => 7
  | .noBase => 8
  | .window => 9
  | .state => 10
  | .settingsDefault => 11
  | .calibrationPending => 12
  | .columnUnknown => 13
  | .clash => 14

/-- The sum of the hold causes' weights (R159). -/
def holdSum (h : HoldSet) : Nat :=
  bit h.operator 1 + bit h.haltClimb 2 + bit h.haltAll 4 + bit h.estop 8 + bit h.key 16 + bit h.mute 32 + bit h.sense 64

/-- The sum of the SAFE causes' weights (R159). -/
def safeSum (f : SafeSet) : Nat :=
  bit f.spread 1 + bit f.strokeRepeat 2 + bit f.overpressure 4 + bit f.valve 8 + bit f.sectorClash 16 +
    bit f.identityClash 32 + bit f.restored 64

/-- A channel state's two bits (R160). -/
def channelNumber (e : ChanEntry) : Nat := match e.state with | .notValid => 0 | .good => 1 | .faulted => 2 | .absent => 3

/-- The number of the first cap equal to Scap (R160). -/
def capNumber (r : CplRecord) : Nat :=
  if r.scap = none then 0
  else if r.cmax = r.scap then 1
  else if r.cfill = r.scap then 2
  else if r.crel = r.scap then 3
  else if r.clead = r.scap then 4
  else 0

/-- The nine STATUS pages (R160). -/
def PageShown (page : Nat) (s : State) (fields : List Byte) : Prop :=
  match page with
  | 0 =>
    fields =
      [byteOf (modeNumber (modeOf s.mct)),
        byteOf (holdSum s.mct.hold),
        byteOf (safeSum s.mct.safe), byteOf ((s.mct.restored.map safeSum).getD 0 : Nat),
        byteOf
          (bit s.pvw.tableFull 1 + bit s.msq.overrun 2 + bit s.lif.muted 4 + bit s.lif.silent 8 +
            bit s.srs.calibrationPending 16 + bit (!s.lco.known) 32 + bit s.ssq.heightValid 64 : Nat),
        byteOf s.lif.bucket, byteOf (match s.srs.loadResult with | .good => 0 | .default => 1),
        byteOf (gatePourNumber s.fct.gate s.fct.pour)] ++
        match s.mct.lastHalt with
        | none => [0, 0]
        | some h =>
          [byteOf h.sender,
            byteOf
              ((match h.post.kind with | .climb => 1 | .all => 2) * 16 +
                match h.post.reason with
                | .spread => 1
                | .strokeRepeat => 2
                | .overpressure => 3
                | .valve => 4
                | .sectorClash => 5
                | .estop => 6)]
  | 1 =>
    fields =
      beBytes 2 s.lif.framingErrors ++ beBytes 2 s.lif.checkErrors ++ beBytes 2 s.lif.overruns ++ beBytes 2 s.lif.garbles ++
        beBytes 2 s.lco.releaseTotal
  | 2 =>
    fields =
      beBytes 3
          (channelNumber s.msq.table.j1 + 4 * channelNumber s.msq.table.j2 + 16 * channelNumber s.msq.table.j3 +
            64 * channelNumber s.msq.table.j4 + 256 * channelNumber s.msq.table.pres + 1024 * channelNumber s.msq.table.fill +
            4096 * channelNumber s.msq.table.t1 + 16384 * channelNumber s.msq.table.t2 +
            65536 * channelNumber s.msq.table.t3 + 262144 * channelNumber s.msq.table.t4 +
            1048576 * channelNumber s.msq.table.beam : Nat) ++
        beBytes 2
          (bit s.msq.table.j1.fresh 1 + bit s.msq.table.j2.fresh 2 + bit s.msq.table.j3.fresh 4 +
            bit s.msq.table.j4.fresh 8 + bit s.msq.table.pres.fresh 16 + bit s.msq.table.fill.fresh 32 +
            bit s.msq.table.t1.fresh 64 + bit s.msq.table.t2.fresh 128 + bit s.msq.table.t3.fresh 256 +
            bit s.msq.table.t4.fresh 512 + bit s.msq.table.beam.fresh 1024 : Nat) ++
        [byteOf s.ssq.chatter, byteOf s.ssq.strokeCount] ++ beBytes 3 s.ssq.height
  | 3 =>
    fields =
      [byteOf
          ((match s.cpl.record.form with | .noForm => 0 | .level => 1 | .creep => 2 | .hold => 3 | .reference => 4) * 16 +
            bit s.cpl.record.bind 1 + bit s.cpl.record.skipped 2 : Nat)] ++
        beBytes 2 (max (-32767) (min 32767 (s.cpl.record.offset.getD 0))) ++ beBytes 2 (s.cpl.record.allowance.getD 0) ++
        beBytes 2 (s.cpl.record.scap.getD 0) ++ [byteOf (capNumber s.cpl.record)] ++ beBytes 2 (s.cpl.record.error.getD 0)
  | 4 =>
    fields =
      beBytes 2 (s.msq.table.j1.value.getD 0) ++ beBytes 2 (s.msq.table.j2.value.getD 0) ++
        beBytes 2 (s.msq.table.j3.value.getD 0) ++ beBytes 2 (s.msq.table.j4.value.getD 0) ++
        beBytes 2 (s.msq.table.pres.value.getD 0)
  | 5 =>
    fields =
      beBytes 2 (s.msq.table.fill.value.getD 0) ++ beBytes 2 (s.msq.table.t1.value.getD 0) ++
        beBytes 2 (s.msq.table.t2.value.getD 0) ++ beBytes 2 (s.msq.table.t3.value.getD 0) ++
        beBytes 2 (s.msq.table.t4.value.getD 0)
  | 6 => fields = beBytes 2 (s.msq.table.beam.value.getD 0)
  | 7 =>
    ∃ minute : List Byte,
      minute.length = 3 ∧ (∀ m, s.cpl.record.minute = some m → minute = beBytes 3 m) ∧
        fields =
          minute ++
            [byteOf
              (match s.cpl.record.basis with
                | .noBasis => 0
                | .twoNeighbours => 1
                | .oneNeighbour => 2
                | .ring => 3
                | .self => 4)] ++
            beBytes 3 (s.cpl.record.href.getD 0) ++
            [match s.cpl.record.spreadExceeded with | some false => 0 | some true => 1 | none => 2] ++
            beBytes 2 (s.cpl.record.slvl.getD 0)
  | 8 =>
    fields =
      beBytes 2 (s.cpl.record.cmax.getD 0) ++ beBytes 2 (s.cpl.record.cfill.getD 0) ++
        beBytes 2 (s.cpl.record.crel.getD 65535) ++ beBytes 2 (s.cpl.record.clead.getD 0) ++
        beBytes 2 (s.cpl.record.sfloor.getD 0)
  | _ => False

/-! ### The layer column, in the terms of R9 and R11 -/

/-- What the release pass at own height `h` leaves of the column (R9): from the old end the records of top at or below `h` are gone, up
to the first above it or the POURING record, each counted in the release total; what is left of the others that starts at or below
`h` is EXITING. -/
def released (h : Int) (l t : Lco) : Prop :=
  ∃ gone kept, l.column = gone ++ kept ∧ (∀ r ∈ gone, r.state ≠ .pouring ∧ r.top ≤ h) ∧
    (∀ r rest, kept = r :: rest → r.state = .pouring ∨ h < r.top) ∧
    t =
      { l with
        column := kept.map fun r => if r.state ≠ .pouring ∧ r.bottom ≤ h then { r with state := .exiting } else r
        releaseTotal := min 65535 (l.releaseTotal + gone.length) }

/-- What a frame shift of `d` to own height `h` leaves of the column (R11): every bottom and top moved by it, and the depth reference,
each limited to the height range; then the release pass. -/
def shifted (d h : Int) (l t : Lco) : Prop :=
  released h
    { l with
      column :=
        l.column.map fun r =>
          { r with bottom := max 0 (min 1000000 (r.bottom + d)), top := max 0 (min 1000000 (r.top + d)) }
      depthRef := l.depthRef.map fun x => max 0 (min 1000000 (x + d)) }
    t

/-- The record that a pour's end leaves, the POURING record being `r` and the one before it `y` where the pour was thin (R7, R8). -/
def endedInto (own : Int) (reason : EndReason) (seconds : Nat) (r : Layer) (y : Option Layer) : Layer :=
  match y with
  | some y =>
    { y with
      state := if y.bottom ≤ own then .exiting else .placed
      top := r.top
      maturity := 0
      flags :=
        { y.flags with
          merged := true
          longPour := y.flags.longPour || (r.flags.longPour || decide (reason = .timeLimit))
          yieldEnded := y.flags.yieldEnded || (r.flags.yieldEnded || decide (reason = .yielded)) } }
  | none =>
    { r with
      state := if r.bottom ≤ own then .exiting else .placed
      duration := some seconds
      flags :=
        { r.flags with
          longPour := r.flags.longPour || decide (reason = .timeLimit)
          yieldEnded := r.flags.yieldEnded || decide (reason = .yielded) } }

/-- The stick mark (R19): the oldest record's maturity has reached M_stick. -/
def sticks (mStick : Int) (l : Lco) : Bool := (l.column.head?.map fun r => decide (mStick ≤ (r.maturity : Int))).getD false

/-! ### The feed, in the terms of R44, R99, R100, R102, R105 and R110 -/

/-- The pour is blocked (R99): the mode SAFE, HALT_ALL, ESTOP, the key in SERVICE, FILL without a valid state, a JAMMED gate, MUTE. -/
def blockedNow (s : State) : Prop :=
  modeOf s.mct = .safe ∨ s.mct.hold.haltAll = true ∨ s.mct.hold.estop = true ∨ s.mct.key = .service ∨
    s.msq.table.fill.state ≠ .good ∨ s.fct.gate = .jammed ∨ s.lif.muted = true

/-- Peers whose gate is not CLOSED: the open count O (R44). -/
def notClosedGates (s : State) : Nat := s.pvw.peers.countP fun p => decide (p.gate ≠ .closed)

/-- Peers whose gate is CLOSING or JAMMED (R44). -/
def closingGates (s : State) : Nat := s.pvw.peers.countP fun p => decide (p.gate = .closing ∨ p.gate = .jammed)

/-- Peers whose gate is JAMMED (R44). -/
def jammedGates (s : State) : Nat := s.pvw.peers.countP fun p => decide (p.gate = .jammed)

/-- Peers whose gate is OPENING or OPEN (R44). -/
def openGates (s : State) : Nat := s.pvw.peers.countP fun p => decide (p.gate = .opening ∨ p.gate = .opened)

/-- The own rank among the open gates: by need at open, largest first, an absent one counting as 0, then by station (R110). -/
def ownGateRank (s : State) : Nat :=
  1 + s.pvw.peers.countP fun p =>
    decide
      ((p.gate = .opening ∨ p.gate = .opened) ∧
        (s.fct.needAtOpen.getD 0 < p.needAtOpen.getD 0 ∨
          (p.needAtOpen.getD 0 = s.fct.needAtOpen.getD 0 ∧ p.station < ownStation s)))

/-- The own rank among the claims of closed gates, for the own need `need`: by need, largest first, then by station (R105). -/
def ownClaimRank (need : Int) (s : State) : Nat :=
  1 + s.pvw.peers.countP fun p =>
    match p.claim with
    | some c => decide (p.gate = .closed ∧ (need < c.need ∨ (c.need = need ∧ p.station < ownStation s)))
    | none => false

/-- The own need of a claim formed now (R102, R112). -/
def needNow (s : State) : Int := if s.cpl.record.bind then 15000 else fillGap s

/-- The claim made (R102): the claim number counted on, the CLAIM post queued, CLAIMING entered. -/
def claimed (s : State) : State :=
  (s.setLif (queueClaimPost { need := needNow s, number := (s.fct.claimNumber + 1) % 256 } s.lif)).setFct
    { s.fct with
      claimNumber := (s.fct.claimNumber + 1) % 256
      ownClaim := some { need := needNow s, number := (s.fct.claimNumber + 1) % 256, sent := false }
      pour := .claiming }

/-- The four conditions of R101. -/
def wants (s : State) : Prop :=
  s.srs.active.gReq ≤ fillGap s ∧ s.fct.gate = .closed ∧ ¬ blockedNow s ∧ ownStation s ≠ 0

/-- "WANT or DRY" (R101), with the claim that the entry to WANT makes where there is a place (R102). -/
def wantedOrDry (s t : State) : Prop :=
  (¬ wants s → t = s.setFct { s.fct with pour := .dry }) ∧
    (wants s → notClosedGates s < s.srs.active.gateLimit → t = claimed s) ∧
    (wants s → s.srs.active.gateLimit ≤ notClosedGates s → t = s.setFct { s.fct with pour := .want })

/-- LIF after a change of gate state (R97): the GATE post and the wanted LEVEL post; neither at station 0 (R175). -/
def gatePosts (gate : GateState) (need : Option Int) (yielded : Bool) (s : State) : Lif :=
  if ownStation s = 0 then s.lif
  else wantLevelPost (ownStation s) (queueGatePost { state := gate, needAtOpen := need.getD 0, yielded := yielded } s.lif)

/-- A pour ended for a reason with its gate OPENING or OPEN and the closed limit off (R109): CLOSING with its posts, ENDING, and
the end request at LCO. -/
def pourEnded (reason : EndReason) (yielded : Bool) (f : Fct) (s : State) : State :=
  ((s.setLif (gatePosts .closing f.needAtOpen yielded s)).setFct
    { f with gate := .closing, motor := .closeDrive, travelMs := 0, pour := .ending }).setLco
    (endLayer s.ssq.height s.srs.active.lMin reason s.lco)

/-- The gate CLOSED at its entry to CLOSING, by a closed limit already on, with the posts of both changes (R95, R97). -/
def closedAtOnce (yielded : Bool) (f : Fct) (s : State) : State :=
  (s.setLif (gatePosts .closed none false (s.setLif (gatePosts .closing f.needAtOpen yielded s)))).setFct
    { f with gate := .closed, motor := .off, travelMs := 0, needAtOpen := none, pour := .ending }

/-- A pour ended for a reason, the feed's state being `f` (R109): with the gate OPENING or OPEN it closes, and with the closed
limit already on it is CLOSED at once, where the yield mark's BACKOFF or "WANT or DRY" follows (R95, R111); any other gate stays
as it is. -/
def pourEndsTo (reason : EndReason) (yielded : Bool) (f : Fct) (s t : State) : Prop :=
  (f.gate ≠ .opening → f.gate ≠ .opened →
      t = (s.setFct { f with pour := .ending }).setLco (endLayer s.ssq.height s.srs.active.lMin reason s.lco)) ∧
    (f.gate = .opening ∨ f.gate = .opened →
      (s.pins.gateClosedLimit = false → t = pourEnded reason yielded f s) ∧
        (s.pins.gateClosedLimit = true →
          ∃ v, t = v.setLco (endLayer s.ssq.height s.srs.active.lMin reason s.lco) ∧
            (f.yieldMark = true →
              v = (closedAtOnce yielded f s).setFct
                { f with
                  gate := .closed, motor := .off, travelMs := 0, needAtOpen := none, pour := .backoff, ownClaim := none,
                  backoffMs := 0, backoffLength := f.pendingBackoff.getD 0, yieldMark := false, pendingBackoff := none }) ∧
            (f.yieldMark = false → wantedOrDry (closedAtOnce yielded f s) v)))

/-- The gate CLOSED (R95 to R97, R101, R111): its posts, and what the pour state makes of it: a yield's BACKOFF or "WANT or DRY" at the
end of ENDING, the test of R101 in DRY. -/
def gateCloses (s t : State) : Prop :=
  ∃ u, u = (s.setLif (gatePosts .closed none false s)).setFct
      { s.fct with gate := .closed, motor := .off, needAtOpen := none } ∧
    (s.fct.pour = .ending → s.fct.yieldMark = true →
      t = u.setFct
        { u.fct with
          pour := .backoff, ownClaim := none, backoffMs := 0, backoffLength := s.fct.pendingBackoff.getD 0,
          yieldMark := false, pendingBackoff := none }) ∧
    (s.fct.pour = .ending → s.fct.yieldMark = false → wantedOrDry u t) ∧
    (s.fct.pour = .dry → wantedOrDry u t) ∧
    (s.fct.pour ≠ .ending → s.fct.pour ≠ .dry → t = u)

/-- LIF after the withdrawal of the CLAIM post (R168): its slot emptied, or, where the slot is empty already, the post in the
transmitter no longer wanted. -/
def claimWithdrawn (l : Lif) : Lif :=
  { l with
    claimSlot := none
    transmitter :=
      l.transmitter.map fun tx =>
        match tx.body with
        | .claim _ => if l.claimSlot = none then { tx with tooLate := true } else tx
        | _ => tx }

/-- What the beginning of the pour block leaves (R100), by the pour state. -/
def blockBegun (s t : State) : Prop :=
  (s.fct.pour = .dry ∨ s.fct.pour = .ending → t = s.setFct { s.fct with blocked := true }) ∧
    (s.fct.pour = .want ∨ s.fct.pour = .backoff → t = s.setFct { s.fct with blocked := true, pour := .dry }) ∧
    (s.fct.pour = .claiming →
      t =
        (s.setLif (if s.fct.ownClaim.map OwnClaim.sent = some false then claimWithdrawn s.lif else s.lif)).setFct
          { s.fct with blocked := true, ownClaim := none, pour := .dry }) ∧
    (s.fct.pour = .pouring → pourEndsTo .blocked false { s.fct with blocked := true } s t)

/-- A change of the pour block's conditions as FCT takes it (R99, R100): the block begins at the first to arise and ends when the last
one clears, with the test of R101 in DRY; another that arises or clears has no effect. -/
def blockTested (s t : State) : Prop :=
  (blockedNow s → s.fct.blocked = true → t = s) ∧ (¬ blockedNow s → s.fct.blocked = false → t = s) ∧
    (blockedNow s → s.fct.blocked = false → blockBegun s t) ∧
    (¬ blockedNow s → s.fct.blocked = true →
      (s.fct.pour = .dry → wantedOrDry (s.setFct { s.fct with blocked := false }) t) ∧
        (s.fct.pour ≠ .dry → t = s.setFct { s.fct with blocked := false }))

/-- The bind mark in POURING raises the own need at open to 15,000 tenths, with a GATE post (R108); none at station 0 (R175). -/
def needRaised (s t : State) : Prop :=
  (s.cpl.record.bind = true → s.fct.pour = .pouring → s.fct.needAtOpen.getD 0 < 15000 →
      t =
        (s.setLif
          (if ownStation s = 0 then s.lif
          else queueGatePost { state := s.fct.gate, needAtOpen := 15000, yielded := false } s.lif)).setFct
          { s.fct with needAtOpen := some 15000 }) ∧
    (¬ (s.cpl.record.bind = true ∧ s.fct.pour = .pouring ∧ s.fct.needAtOpen.getD 0 < 15000) → t = s)

/-- What a good FILL result of this gap leaves of the feed, LCO having taken it (R101, R108, R109). -/
def fillTested (gap : Int) (u t : State) : Prop :=
  (u.fct.pour = .dry → wantedOrDry u t) ∧
    (u.fct.pour = .want → t = if gap < u.srs.active.gReq then u.setFct { u.fct with pour := .dry } else u) ∧
    (u.fct.pour = .pouring →
      (gap ≤ u.srs.active.gFull → pourEndsTo .fillReached false u.fct u t) ∧ (u.srs.active.gFull < gap → t = u)) ∧
    (u.fct.pour = .claiming ∨ u.fct.pour = .backoff ∨ u.fct.pour = .ending → t = u)

/-- What a good FILL result of this gap leaves of LCO (R6, R22): the POURING record's top raised; the column known from the first
such result on, with the synthetic record where the concrete stands above own height. -/
def fillTaken (gap : Int) (s : State) (l : Lco) : Prop :=
  (s.lco.known = true →
      ((∀ r ∈ s.lco.column, r.state ≠ .pouring) → l = s.lco) ∧
        ∀ older r, s.lco.column = older ++ [r] → r.state = .pouring → (∀ x ∈ older, x.state ≠ .pouring) →
          l = { s.lco with
                column :=
                  older ++ [{ r with top := max r.top (min 1000000 (s.ssq.height + s.srs.active.formHeight - gap)) }] }) ∧
    (s.lco.known = false → s.lco.column = [] →
      (min 1000000 (s.ssq.height + s.srs.active.formHeight - gap) ≤ s.ssq.height → l = { s.lco with known := true }) ∧
        (s.ssq.height < min 1000000 (s.ssq.height + s.srs.active.formHeight - gap) →
          l = { s.lco with
                known := true
                nextId := (s.lco.nextId + 1) % 65536
                column :=
                  [{ id := s.lco.nextId, state := .placed, bottom := s.ssq.height
                     top := min 1000000 (s.ssq.height + s.srs.active.formHeight - gap)
                     maturity := 0, pourStart := s.lco.runClock, duration := some 0
                     flags := { noLayerFlags with synthetic := true } }] }))

/-! ### The cause sets and the mode, in the terms of R78, R135, R137 and R140 to R143 -/

/-- SSQ after a cut request (R78): PRESSURIZE and LIFT go to TOPDWELL with the lift valve off and the rise end CUT; the other
phases carry on. -/
def cutLeaves (s : State) : Ssq :=
  if s.ssq.phase = .pressurize then
    { s.ssq with
      phase := .topdwell, liftEnable := false, dutyWritten := 0
      stroke := s.ssq.stroke.map fun st => { st with riseEnd := some .cut, liftDuration := some 0 } }
  else if s.ssq.phase = .lift then
    { s.ssq with
      phase := .topdwell, liftEnable := false, dutyWritten := 0
      stroke := s.ssq.stroke.map fun st => { st with riseEnd := some .cut, liftDuration := some (liftElapsed s) } }
  else s.ssq

/-- MSQ after a cut request (R78, R127): a pending START trigger is withdrawn in PRESSURIZE. -/
def cutWithdraws (s : State) : Msq :=
  if s.ssq.phase = .pressurize ∧ s.msq.pendingTrigger = some .start then { s.msq with pendingTrigger := none } else s.msq

/-- Creep is permitted (R139). -/
def creepAllowed (m : Mct) : Prop :=
  m.hold.haltAll = false ∧ m.hold.estop = false ∧ m.hold.key = false ∧ m.hold.sense = false

/-- A change of MCT's state from `m` to `m'` that sets the settling mark while SSQ is not IDLE (R140). -/
def settles (m m' : Mct) : Prop :=
  (modeOf m = .climb ∧ (modeOf m' = .hold ∨ modeOf m' = .safe)) ∨ (modeOf m ≠ .safe ∧ modeOf m' = .safe) ∨
    (creepAllowed m ∧ ¬ creepAllowed m')

/-- What follows a change in the base or in a cause set, MCT's state before it being `m` (R135, R136, R140): at a change of mode the
extra LEVEL post, and the end of amend mode where the new mode is CLIMB; the settling mark; and the report to FCT, by which the pour
block may begin or end. -/
def modeFollowed (m : Mct) (s t : State) : Prop :=
  ∃ u b, blockTested u t ∧ (b = true ↔ s.mct.settling = true ∨ (s.ssq.phase ≠ .idle ∧ settles m s.mct)) ∧
    u =
      ((s.setLif (if modeOf s.mct = modeOf m then s.lif else wantLevelPost (ownStation s) s.lif)).setOrs
        (if modeOf s.mct ≠ modeOf m ∧ modeOf s.mct = .climb then { s.ors with amend := false } else s.ors)).setMct
        { s.mct with settling := b }

/-- MCT queues a HALT post (R143): none at station 0 or with IDENTITY_CLASH in the SAFE set, and none of kind CLIMB while one of kind
ALL waits. -/
def haltQueued (p : HaltPost) (s t : State) : Prop :=
  (ownStation s = 0 ∨ s.mct.safe.identityClash = true ∨
      (p.kind = .climb ∧ s.mct.queuedHalt.map HaltPost.kind = some .all) → t = s) ∧
    (ownStation s ≠ 0 → s.mct.safe.identityClash = false →
      (p.kind = .all ∨ s.mct.queuedHalt.map HaltPost.kind ≠ some .all) →
        t = (s.setLif (queueHaltPost p s.lif)).setMct { s.mct with queuedHalt := some p })

/-- A SAFE cause added, the set becoming `f` (R137, R141): the first one makes the SAFE entry, with the cut, what follows the change of
mode, and the HALT post of its reason, none for IDENTITY_CLASH; another joins the set and has no further effect. -/
def causeAdded (reason : Option HaltReason) (f : SafeSet) (s t : State) : Prop :=
  (s.mct.safe ≠ noSafe → t = s.setMct { s.mct with safe := f }) ∧
    (s.mct.safe = noSafe →
      ∃ u, modeFollowed s.mct
          (((s.setSsq (cutLeaves s)).setMsq (cutWithdraws s)).setMct { s.mct with safe := f }) u ∧
        match reason with
        | some why => haltQueued { kind := .climb, reason := why } u t
        | none => t = u)

/-- Causes leave the SAFE set, which becomes `f` (R137, R142): where it empties with the base RUNNING, OPERATOR is added; and what
follows the change. -/
def safeLeft (f : SafeSet) (s t : State) : Prop :=
  (f = s.mct.safe → t = s) ∧
    (f ≠ s.mct.safe →
      modeFollowed s.mct
        (s.setMct
          { s.mct with
            safe := f
            restored := if f.restored then s.mct.restored else none
            hold :=
              if f = noSafe ∧ s.mct.safe ≠ noSafe ∧ s.mct.base = .running then { s.mct.hold with operator := true }
              else s.mct.hold })
        t)

/-- The sector-clash condition tested (R39): `u` is `s` with the condition as its table gives it, and the SAFE cause added or
removed where the condition changes. -/
def clashTested (s u : State) : Prop :=
  (sectorClashes (ownStation s) (sectorOf s.srs.active) s.pvw.peers = s.pvw.sectorClash → u = s) ∧
    (sectorClashes (ownStation s) (sectorOf s.srs.active) s.pvw.peers = true → s.pvw.sectorClash = false →
      causeAdded (some .sectorClash) { s.mct.safe with sectorClash := true } (s.setPvw { s.pvw with sectorClash := true }) u) ∧
    (sectorClashes (ownStation s) (sectorOf s.srs.active) s.pvw.peers = false → s.pvw.sectorClash = true →
      safeLeft { s.mct.safe with sectorClash := false } (s.setPvw { s.pvw with sectorClash := false }) u)

/-! ### The line, in the terms of R163 and R166 -/

/-- A post of a kind that a block of this node takes (R163): LEVEL, CLAIM, GATE and HALT of another station, and an ORDER of a
panel to the own station or to the ring. -/
def takenHere (s : State) (p : RxPost) : Prop :=
  p.sender ≠ ownStation s ∧
    match p.body with
    | .reply _ => False
    | .order [] => False
    | .order (target :: _) => (1 ≤ p.sender ∧ p.sender ≤ 62) ∧ (target.toNat = ownStation s ∨ target.toNat = 63)
    | _ => True

/-- LIF's rejoin timer and count after an error: restarted in MUTE (R172). -/
def errorHeard (l : Lif) : Lif :=
  { l with rejoinMs := if l.muted then 0 else l.rejoinMs, rejoinCount := if l.muted then 0 else l.rejoinCount }

/-- LIF may begin a post (R171, R173, R174). -/
structure LineFree (s : State) : Prop where
  runs : lineRuns s = true
  access : s.lif.access = true
  speaks : s.lif.muted = false ∧ s.lif.silent = false
  free : s.lif.transmitter = none

/-- LIF's quiet time as an ACCESS without a post to begin reports it; more than 3 bit times end the wait that a framing error
began (R155, R161). -/
def quieter (quiet : Nat) (s : State) : Lif :=
  { s.lif with
    quietUs := max s.lif.quietUs (quiet * bitTimeUs s.srs.active)
    rx :=
      if s.lif.rx = .errored ∧ 3 < max s.lif.quietUs (quiet * bitTimeUs s.srs.active) / bitTimeUs s.srs.active then .ready
      else s.lif.rx }

/-- What ACCESS answers when the first post of the queue has this class, content and age, `l` being LIF with its slot emptied: the
post begins once the quiet time has reached its gap (R165, R166). -/
def accessTaken (cls : Nat) (body : PostBody) (stamp quiet : Nat) (l : Lif) (s t : State) : Prop :=
  (accessGap (ownStation s) s.lif.lastSender cls ≤ max quiet (s.lif.quietUs / bitTimeUs s.srs.active) →
      t = s.setLif
        { l with
          transmitter := some { body := body, stamp := stamp, tooLate := false, bytes := frameOf (ownStation s) body }
          rx := .assembling
          quietUs := 0
          byteLeftUs := 10 * bitTimeUs s.srs.active }) ∧
    (max quiet (s.lif.quietUs / bitTimeUs s.srs.active) < accessGap (ownStation s) s.lif.lastSender cls →
      t = s.setLif (quieter quiet s))

/-- A garbled post's slot afterwards (R168, R169): the post back with its age, unless a successor stands there or its owner no
longer wants it. -/
def backInSlot {α : Type} (slot : Option (Slot α)) (post : α) (tx : Transmission) : Option (Slot α) :=
  if slot.isSome ∨ tx.tooLate = true then slot else some { post := post, stamp := tx.stamp }

/-- LIF after a garble of `tx`, before MUTE (R169). -/
def garbled (tx : Transmission) (s : State) : Lif :=
  { s.lif with
    transmitter := none
    bucket := s.lif.bucket + 8
    garbles := min 65535 (s.lif.garbles + 1)
    lastSender := ownStation s
    rx := .assembling
    haltSlot := match tx.body with | .halt p => backInSlot s.lif.haltSlot p tx | _ => s.lif.haltSlot
    claimSlot := match tx.body with | .claim p => backInSlot s.lif.claimSlot p tx | _ => s.lif.claimSlot
    gateSlot := match tx.body with | .gate p => backInSlot s.lif.gateSlot p tx | _ => s.lif.gateSlot
    levelSlot := match tx.body with | .level _ => backInSlot s.lif.levelSlot () tx | _ => s.lif.levelSlot
    replySlot := match tx.body with | .reply p => backInSlot s.lif.replySlot p tx | _ => s.lif.replySlot }

/-- The commanded restart begun: the node stopped for its start, and the restart-waiting mark ended (R176, R188, R201). -/
def restartBegun (s : State) : State :=
  (s.setSrs { s.srs with life := .restarting }).setOrs { s.ors with restartWaiting := false }

/-- What the report that the RESTART's reply is sent or discarded leaves: the restart begun, unless a write of the stored block is in
progress (R188, R201). -/
def restartReported (s : State) : State :=
  if s.srs.write = none then restartBegun (s.setSrs { s.srs with restartReady := true })
  else s.setSrs { s.srs with restartReady := true }

/-- LIF after a clean own post (R170). -/
def sentBy (s : State) : Lif :=
  { s.lif with
    transmitter := none, bucket := s.lif.bucket - 1, lastSender := ownStation s, rx := .ready, quietUs := 0, byteLeftUs := 0 }

/-! ### Samples, in the terms of R70, R75, R88 and R90 -/

/-- A jack's travel in LIFT: its result in the table less its reading in the START sample, where both are good (R70). -/
def travelNow (start : SampleElem) (e : ChanEntry) : Option Int :=
  match start.good, start.value, e.state, e.value with
  | true, some x, .good, some y => some (y - x)
  | _, _, _, _ => none

/-- The travels of the good transducers in LIFT (R70). -/
def travelsNow (start : Sample) (t : ChanTable) : List Int :=
  [travelNow start.j1 t.j1, travelNow start.j2 t.j2, travelNow start.j3 t.j3, travelNow start.j4 t.j4].filterMap id

/-- A jack's travel from one sample set to another, where it is good in both (R88, R90). -/
def travelIn (a b : SampleElem) : Option Int :=
  match a.good, a.value, b.good, b.value with
  | true, some x, true, some y => some (y - x)
  | _, _, _, _ => none

/-- The travels of the jacks good in both sets (R88, R90). -/
def travelsIn (a b : Sample) : List Int :=
  [travelIn a.j1 b.j1, travelIn a.j2 b.j2, travelIn a.j3 b.j3, travelIn a.j4 b.j4].filterMap id

/-- The travels from START to TOP of the jacks that take part in the climbed distance: good in the START, TOP and END samples
(R75). -/
def travelsTaken (start top finish : Sample) : List Int :=
  [(finish.j1.good, travelIn start.j1 top.j1), (finish.j2.good, travelIn start.j2 top.j2),
    (finish.j3.good, travelIn start.j3 top.j3), (finish.j4.good, travelIn start.j4 top.j4)].filterMap fun p =>
    if p.1 then p.2 else none

/-- floor(Σ/n) of these travels with a negative sum counting as 0 (R90); over no jack the model takes 0 (log entry 37). -/
def MeanOfTravels (travels : List Int) (x : Int) : Prop :=
  (travels = [] → x = 0) ∧ (travels ≠ [] → x = max 0 travels.sum / travels.length)

/-- The extension at save (R90): from the START sample to the latest results in PRESSURIZE and LIFT and until the TOP sample is
there, and to the TOP sample after that (log entry 33). -/
def ExtensionSaved (s : State) (x : Int) : Prop :=
  (s.ssq.stroke = none → x = 0) ∧
    ∀ st, s.ssq.stroke = some st →
      (st.startSample = none → x = 0) ∧
        ∀ a, st.startSample = some a →
          (s.ssq.phase = .pressurize ∨ s.ssq.phase = .lift ∨ st.topSample = none →
            MeanOfTravels (travelsNow a s.msq.table) x) ∧
          (s.ssq.phase ≠ .pressurize → s.ssq.phase ≠ .lift → ∀ b, st.topSample = some b → MeanOfTravels (travelsIn a b) x)

/-- The state with everything that a save stops stopped (R90, R113, R133, R204): the valves and the gate drive off, no chain or
trigger, the lamps dark. -/
structure OutputsStopped (s t : State) : Prop where
  valves : t.ssq = { s.ssq with liftEnable := false, dutyWritten := 0, releaseOn := false }
  gate : t.fct = { s.fct with motor := .off }
  converter : t.msq = { s.msq with chain := none, pendingTrigger := none }
  lamps : t.ldr = { s.ldr with lit := false }

/-- What the retention area holds after a save (R198). -/
structure AreaSaved (atRestart : Bool) (s : State) (a : Retained) : Prop where
  height : a.height = s.ssq.height ∧ a.heightValid = s.ssq.heightValid
  stroke :
    a.plane = s.ssq.plane ∧ a.strokeCount = s.ssq.strokeCount ∧ a.history = s.ssq.history ∧
      a.whileStroking = decide (s.ssq.phase ≠ .idle)
  extension : ExtensionSaved s a.extension
  column : (∀ r ∈ s.lco.column, r.state ≠ .pouring) → a.column = s.lco.column
  pour : a.column = (endLayer s.ssq.height s.srs.active.lMin .blocked s.lco).column
  clock : a.runClock = s.lco.runClock
  trim : a.trim = s.cpl.trim
  modes :
    a.base = s.mct.base ∧ a.wasSafe = decide (s.mct.safe ≠ noSafe) ∧ a.safe = s.mct.safe ∧ a.window = s.mct.window
  marking : a.atRestart = atRestart

/-! ### Strokes, in the terms of R66, R70, R81 and R122 -/

/-- What every SAFE entry by a cause other than IDENTITY_CLASH leaves (R135, R140, R141, R143): the cut, the settling mark, the
pour ended, and the HALT post of kind CLIMB with its reason, unless one of kind ALL waits or the station is 0. -/
structure SafeEntered (reason : HaltReason) (s t : State) : Prop where
  mode : modeOf t.mct = .safe
  base : t.mct.base = s.mct.base ∧ t.mct.hold = s.mct.hold
  settling : s.ssq.phase ≠ .idle → t.mct.settling = true
  halt :
    ownStation s ≠ 0 → s.mct.queuedHalt.map HaltPost.kind ≠ some .all →
      t.mct.queuedHalt = some { kind := .climb, reason := reason } ∧
        t.lif.haltSlot.map Slot.post = some { kind := .climb, reason := reason }
  kept : s.mct.queuedHalt.map HaltPost.kind = some .all → t.mct.queuedHalt = s.mct.queuedHalt ∧ t.lif.haltSlot = s.lif.haltSlot
  pour :
    s.fct.blocked = false → s.fct.pour = .pouring → s.pins.gateClosedLimit = false → s.fct.gate = .opening ∨ s.fct.gate = .opened →
      t.fct.pour = .ending ∧ t.fct.gate = .closing
  converter : t.msq = cutWithdraws s
  elsewhere : SameElsewhere s t

/-- A channel's element of a substituted copy (R126): its value, good while its state is GOOD. -/
def copied (e : ChanEntry) : SampleElem := { value := e.value, good := decide (e.state = .good) }

/-- The substituted copy that answers a lost trigger (R126). -/
def copyNow (t : ChanTable) : Sample :=
  { j1 := copied t.j1, j2 := copied t.j2, j3 := copied t.j3, j4 := copied t.j4, pres := copied t.pres, substituted := true }

/-- MSQ after a trigger (R122, R125, R126): its chain starts, or it waits for the chain in flight, or it is lost. -/
def triggered (tag : Tag) (m : Msq) : Msq :=
  if m.chain = none then { m with chain := some { tag := tag, done := [] } }
  else if m.pendingTrigger = none then { m with pendingTrigger := some tag }
  else { m with overrun := true }

/-- A stroke started (R65, R66, R69, R72): PRESSURIZE with the lift valve on and the ramp begun, every field of the stroke but kind and
allowance absent, and the START trigger fired: the START sample of a trigger that is lost is the substituted copy. -/
def strokeStarted (kind : StrokeKind) (allowance : Option Int) (s t : State) : Prop :=
  t =
    (s.setSsq
      { s.ssq with
        phase := .pressurize, liftEnable := true, dutyWritten := 40
        stroke :=
          some
            { kind := kind, allowance := allowance,
              startSample :=
                if s.msq.chain ≠ none ∧ s.msq.pendingTrigger ≠ none then some (copyNow s.msq.table) else none,
              topSample := none, endSample := none, liftEntry := none, liftDuration := none, releaseEntry := none,
              releaseDuration := none, riseEnd := none, faults := [], laser := none, topFired := false } }).setMsq
      (triggered .start s.msq)

/-- The sense condition (R129): PRES faulted, or two or more jacks. -/
def senseNow (t : ChanTable) : Bool :=
  decide (t.pres.state = .faulted ∨ 2 ≤ [t.j1, t.j2, t.j3, t.j4].countP fun e => decide (e.state = .faulted))

/-- A frame shift of own height to `h`, valid (R81): the signed difference goes to the column, unless it is 0. -/
def shiftedTo (h : Int) (s t : State) : Prop :=
  t = (s.setSsq { s.ssq with height := h, heightValid := true, heightLimit := t.ssq.heightLimit }).setLco
    (if h = s.ssq.height then s.lco else shiftColumn (h - s.ssq.height) h s.lco)

/-- The four conditions of R82 hold with this beam offset and plane. -/
structure BeamSeen (plane b : Int) (s : State) : Prop where
  plane : s.ssq.plane = some plane
  present : s.pins.beamPresent = true
  good : s.msq.table.beam.state = .good ∧ s.msq.table.beam.value = some b
  window : -480 ≤ b ∧ b ≤ 480

/-- The laser height (R82). -/
def laserAt (plane b : Int) (s : State) : Int := max 0 (min 1000000 (plane - s.srs.active.receiverOffset - b))

/-- The conversion announces something: a good result, or a change of the channel's state (R120). -/
def Announced (c : Channel) (raw : Nat) (e : ChanEntry) : Prop :=
  announcesGood c raw e = true ∨ (entryAfter c raw e).state ≠ e.state

/-- SSQ after the end of LIFT (R70): the lift valve off, the lift duration recorded in the stroke `st` that leaves it. -/
def liftEnded (st : Stroke) (s : State) : Ssq :=
  { s.ssq with
    phase := .topdwell, liftEnable := false, dutyWritten := 0
    stroke := some { st with liftDuration := some (liftElapsed s) } }

/-- What the tests of R70 leave of SSQ, the first condition that applies ending LIFT. A stroke without an allowance, a calibration
stroke, has no target (R88). -/
def liftTested (travels : List Int) (st : Stroke) (s : State) (q : Ssq) : Prop :=
  (travels.length < 3 → q = liftEnded { st with faults := st.faults ++ [.transducer] } s) ∧
    (3 ≤ travels.length →
      ((∃ x ∈ travels, ∃ y ∈ travels, s.srs.active.skewLimit < x - y) →
          q = liftEnded { st with faults := st.faults ++ [.skew] } s) ∧
        ((∀ x ∈ travels, ∀ y ∈ travels, x - y ≤ s.srs.active.skewLimit) →
          (∀ S, st.allowance = some S → max 0 (S - s.srs.active.valveOverrun) ≤ travels.sum / travels.length →
              q = liftEnded { st with riseEnd := some .target } s) ∧
            ((∀ S, st.allowance = some S → travels.sum / travels.length < max 0 (S - s.srs.active.valveOverrun)) →
              q = s.ssq)))

/-- The jacks are home by the table (R73). -/
def homeNow (pRest : Int) (t : ChanTable) : Prop :=
  ((t.pres.state = .good ∧ ∃ v, t.pres.value = some v ∧ v ≤ pRest) ∨
      (t.pres.state = .faulted ∧ ∃ e ∈ [t.j1, t.j2, t.j3, t.j4], e.state = .good)) ∧
    ∀ e ∈ [t.j1, t.j2, t.j3, t.j4], e.state = .good → ∀ v, e.value = some v → v ≤ 30

/-- SSQ with the sample set `p` of a chain stored under its tag in the stroke in flight (R72, R123). -/
def sampleStored (tag : Tag) (p : Sample) (q : Ssq) : Ssq :=
  { q with
    stroke := q.stroke.map fun st =>
      match tag with
      | .start => { st with startSample := some p }
      | .top => { st with topSample := some p }
      | .finish => { st with endSample := some p } }

/-- SSQ after a conversion of PRES, the last of a chain, of a chain's five: the chain's sample set stored (R123). -/
def chainStored (raw : Nat) (m : Msq) (q : Ssq) : Ssq :=
  match m.chain with
  | none => q
  | some ch =>
    if ch.done.length < 4 then q
    else sampleStored ch.tag (sampleOf (ch.done ++ [sampleElem .pres raw m.table.pres])) q

/-- What the end of RELEASE leaves (R73, R74, R122, R125, R126): SETTLE with the release valve off, the release duration recorded
and the END trigger taken at once or pending; a trigger that is lost is answered at once, so that the stroke is complete. -/
def returned (st : Stroke) (s t : State) : Prop :=
  (s.msq.chain = none ∨ s.msq.pendingTrigger = none →
      t.ssq.phase = .settle ∧ t.ssq.releaseOn = false ∧ t.msq.overrun = s.msq.overrun ∧
        ∀ since, st.releaseEntry = some since →
          t.ssq.stroke = some { st with releaseDuration := some (min (s.nowMs - since) 5000) }) ∧
    (s.msq.chain = none →
      t.msq.chain = some { tag := .finish, done := [] } ∧ t.msq.pendingTrigger = s.msq.pendingTrigger) ∧
    (s.msq.chain ≠ none → s.msq.pendingTrigger = none → t.msq.pendingTrigger = some .finish) ∧
    (s.msq.chain ≠ none → s.msq.pendingTrigger ≠ none →
      t.msq.overrun = true ∧ t.msq.pendingTrigger = s.msq.pendingTrigger ∧ t.ssq.phase = .idle ∧ t.ssq.stroke = none ∧
        t.ssq.releaseOn = false ∧ t.ssq.strokeCount = (s.ssq.strokeCount + 1) % 256)

/-! ### What a conversion's announcements leave, in the terms of R69, R70, R73, R79, R120 to R130 -/

/-- SETTLE entered with the stroke `st` (R73, R74, R122, R125, R126): the release valve off and the END trigger fired, which starts
its chain, waits for the chain in flight, or is lost and answered at once by the substituted copy, so that the stroke is complete. -/
def settleEntered (st : Stroke) (s t : State) : Prop :=
  (s.msq.chain = none ∨ s.msq.pendingTrigger = none →
      t = (s.setSsq { s.ssq with phase := .settle, releaseOn := false, stroke := some st }).setMsq (triggered .finish s.msq)) ∧
    (s.msq.chain ≠ none → s.msq.pendingTrigger ≠ none → ∀ done, done = { st with endSample := some (copyNow s.msq.table) } →
      t = completeSettle done
        ((s.setSsq { s.ssq with phase := .settle, releaseOn := false, stroke := some done }).setMsq
          (triggered .finish s.msq)))

/-- The test of the return condition in RELEASE (R73): with the jacks home, SETTLE with the release duration recorded; in every other
case nothing. -/
def releaseTested (s t : State) : Prop :=
  (s.ssq.phase = .release → homeNow s.srs.active.pRest s.msq.table →
      ∀ st since, s.ssq.stroke = some st → st.releaseEntry = some since →
        settleEntered { st with releaseDuration := some (min (s.nowMs - since) 5000) } s t) ∧
    (s.ssq.phase ≠ .release ∨ ¬ homeNow s.srs.active.pRest s.msq.table → t = s)

/-- What a jack's result or change of state is tested for, by the phase in force (R70, R73). -/
def jackTested (s t : State) : Prop :=
  (s.ssq.phase = .lift → ∀ st, s.ssq.stroke = some st →
      (st.startSample = none → t = s) ∧
        ∀ a, st.startSample = some a → ∃ q, liftTested (travelsNow a s.msq.table) st s q ∧ t = s.setSsq q) ∧
    (s.ssq.phase ≠ .lift → releaseTested s t)

/-- The entry to LIFT (R69): the full duty written, the LIFT entry recorded, and the tests of LIFT made at once where the START sample
is there (R70). -/
def liftEntered (s t : State) : Prop :=
  ∀ st begun q, s.ssq.stroke = some st → begun = { st with liftEntry := some s.nowMs } →
    q = { s.ssq with
          phase := .lift
          dutyWritten := if s.ssq.dutyInForce = 100 then s.ssq.dutyWritten else 100
          stroke := some begun } →
      (st.startSample = none → t = s.setSsq q) ∧
        ∀ a, st.startSample = some a → ∃ r, liftTested (travelsNow a s.msq.table) begun (s.setSsq q) r ∧ t = s.setSsq r

/-- The phase's own test of a good PRES result `v` (R69, R73). -/
def pressureTested (v : Int) (s t : State) : Prop :=
  (s.ssq.phase = .pressurize → s.srs.active.pLift ≤ v → liftEntered s t) ∧
    (s.ssq.phase = .pressurize → v < s.srs.active.pLift → t = s) ∧ (s.ssq.phase ≠ .pressurize → releaseTested s t)

/-- What SSQ makes of a good PRES result `v` (R69, R73, R79): the phase's own test, then (log entry 19) the overpressure condition,
which puts the SAFE cause OVERPRESSURE on with all that a SAFE entry brings where it is the first cause (R78, R141, R143). -/
def pressureTaken (v : Int) (s t : State) : Prop :=
  ∃ u, pressureTested v s u ∧
    (s.srs.active.pOver < v →
      causeAdded (some .overpressure) { u.mct.safe with overpressure := true }
        (u.setSsq { u.ssq with overpressure := true }) t) ∧
    (v ≤ s.srs.active.pOver → t = u.setSsq { u.ssq with overpressure := false })

/-- The sense condition tested (R129): where it turns on or off, the hold cause SENSE comes or goes, with the change of mode that
follows from it (R135, R140) and no cut (R138). -/
def senseTested (s t : State) : Prop :=
  (senseNow s.msq.table = s.msq.sense → t = s) ∧
    (senseNow s.msq.table ≠ s.msq.sense →
      modeFollowed s.mct
        ((s.setMsq { s.msq with sense := senseNow s.msq.table }).setMct
          { s.mct with hold := { s.mct.hold with sense := senseNow s.msq.table } })
        t)

/-- A good result `v` of a channel as its readers take it (R130): SSQ a jack's and PRES's; LCO, then FCT, FILL's. -/
def resultTaken (c : Channel) (v : Int) (s t : State) : Prop :=
  (isJack c = true → jackTested s t) ∧ (c = .pres → pressureTaken v s t) ∧
    (c = .fill → ∃ l, fillTaken v s l ∧ fillTested v (s.setLco l) t) ∧
    (isJackOrPres c = false → c ≠ .fill → t = s)

/-- A change of a channel's state as its readers take it (R130): SSQ, then the sense condition, a jack's and PRES's; FCT, whose pour
block may begin or end, FILL's. -/
def changeTaken (c : Channel) (s t : State) : Prop :=
  (isJack c = true → ∃ u, jackTested s u ∧ senseTested u t) ∧ (c = .pres → ∃ u, releaseTested s u ∧ senseTested u t) ∧
    (c = .fill → blockTested s t) ∧ (isJackOrPres c = false → c ≠ .fill → t = s)

/-- The end of a conversion at MSQ (R123 to R125): a chain with its five conversions delivers its sample set, which is stored under its
tag in the stroke in flight, the END sample completing SETTLE (R74); the pending trigger's chain starts, or the scan resumes. With
no stroke in flight the set is dropped (log entry 35). -/
def chainEnded (s t : State) : Prop :=
  ((∀ ch, s.msq.chain = some ch → ch.done.length < 5) → t = s) ∧
    ∀ ch, s.msq.chain = some ch → 5 ≤ ch.done.length →
      ∃ u,
        t = u.setMsq
          { u.msq with
            chain := u.msq.pendingTrigger.map fun tag => { tag := tag, done := [] }
            pendingTrigger := none } ∧
        (¬ (ch.tag = .finish ∧ s.ssq.phase = .settle) → u = s.setSsq (sampleStored ch.tag (sampleOf ch.done) s.ssq)) ∧
        (ch.tag = .finish → s.ssq.phase = .settle →
          (s.ssq.stroke = none → u = s) ∧
            ∀ st done, s.ssq.stroke = some st → done = { st with endSample := some (sampleOf ch.done) } →
              u = completeSettle done (s.setSsq { s.ssq with stroke := some done }))

/-! ### The lamps, in the terms of R202 -/

/-- A lamp source is on (R202). -/
def sourceOn (n : Int) (s : State) : Prop :=
  match n with
  | 0 => s.ssq.phase ≠ .idle
  | 1 => s.fct.gate = .opening ∨ s.fct.gate = .opened
  | 2 => s.fct.pour = .want ∨ s.fct.pour = .claiming ∨ s.fct.pour = .backoff
  | 3 => modeOf s.mct = .hold
  | 4 => modeOf s.mct = .safe
  | 5 => s.cpl.record.bind = true
  | 6 => ∃ d, s.cpl.record.offset = some d ∧ 50 < d
  | 7 => ∃ d, s.cpl.record.offset = some d ∧ d < -50
  | 8 => s.lif.muted = true
  | 9 => (∃ c, (entryOf s.msq.table c).state = .faulted) ∨ s.fct.gate = .jammed
  | 10 => True
  | _ => False

/-! ### When a post is taken -/

/-- The post is at the head of the receive FIFO with `rest` behind it, or is taken in the moment it completes into an empty FIFO
(R164; log entry 6). -/
def Waits (p : RxPost) (rest : List RxPost) (s : State) : Prop :=
  s.lif.fifo = p :: rest ∨ (s.lif.fifo = [] ∧ rest = [])

/-- An addressed order that ORS takes now (R163, R164, R177). -/
structure AddressedOrder (sender target : Nat) (code : Byte) (args : List Byte) (rest : List RxPost) (s : State) : Prop where
  runs : blocksRun s = true
  panel : 1 ≤ sender ∧ sender ≤ 62
  other : sender ≠ ownStation s
  own : target = ownStation s
  single : target ≠ 63
  waits : Waits (orderPost sender target code args) rest s

/-- A ring-wide order that ORS takes now (R163, R164, R177). -/
structure RingOrder (sender : Nat) (code : Byte) (args : List Byte) (rest : List RxPost) (s : State) : Prop where
  runs : blocksRun s = true
  panel : 1 ≤ sender ∧ sender ≤ 62
  other : sender ≠ ownStation s
  waits : Waits (orderPost sender 63 code args) rest s

/-- A post of another station that its owner takes now (R29, R144, R164). -/
structure PostTaken (sender : Nat) (body : PostBody) (rest : List RxPost) (s : State) : Prop where
  runs : blocksRun s = true
  peer : 1 ≤ sender ∧ sender ≤ 62
  other : sender ≠ ownStation s
  waits : Waits { sender := sender, body := body } rest s

/-- A post that reaches its owner from a sender that can be no peer: 0, or above 62 (R29, R144). -/
structure PostOutside (sender : Nat) (body : PostBody) (rest : List RxPost) (s : State) : Prop where
  runs : blocksRun s = true
  outside : sender = 0 ∨ 62 < sender
  other : sender ≠ ownStation s
  waits : Waits { sender := sender, body := body } rest s

/-- The state with a post taken from the FIFO. -/
def removed (rest : List RxPost) (s : State) : State := s.setLif { s.lif with fifo := rest }

/-- The state in which an addressed order is judged: its post taken, amend mode ended (R177). -/
def judged (rest : List RxPost) (s : State) : State := (removed rest s).setOrs { s.ors with amend := false }

/-- No STORE is under way (R177). -/
def NotStoring (s : State) : Prop := s.ors.storeWaiting = none

/-- `t` answers the order with this reply and leaves everything as it is in `u` but for the reply queued at LIF, where MUTE
discards it (R171; log entry 36). -/
def repliedTo (sender : Nat) (code : Byte) (r : Result) (data : List Byte) (u t : State) : Prop :=
  t = u.setLif (queueReplyPost (replyPayload sender code r data) u.lif)

/-! ### What the mode and height orders leave -/

/-- What a mode order taken in `x` leaves beside MCT's own state: SSQ, MSQ and the FIFO as they are, the settling mark added at most
and never while SSQ is IDLE (R140), and all that follows the change of MCT's state (R135, R100). -/
structure ModeStepFrame (x u : State) : Prop where
  stroke : u.ssq = x.ssq ∧ u.msq = x.msq
  fifo : u.lif.fifo = x.lif.fifo
  settling : (x.mct.settling = true → u.mct.settling = true) ∧ (x.ssq.phase = .idle → u.mct.settling = x.mct.settling)
  orders : modeOf u.mct ≠ .climb → u.ors = x.ors
  follows : modeFollowed x.mct (x.setMct { u.mct with settling := x.mct.settling }) u
  elsewhere : SameElsewhere x u

/-- The hold set that a CLIMB order leaves: OPERATOR, HALT_CLIMB and HALT_ALL removed, ESTOP kept while the input is active. -/
def climbLeaves (m : Mct) : HoldSet :=
  { m.hold with operator := false, haltClimb := false, haltAll := false, estop := m.hold.estop && m.estopActive }

/-- What a CLIMB order taken in `x` leaves (R147, R148): the base RUNNING, the causes that remain, the mode that follows. -/
def climbTakes (x u : State) : Prop :=
  u.mct = { x.mct with base := .running, hold := climbLeaves x.mct, settling := u.mct.settling } ∧
    modeOf u.mct = (if climbLeaves x.mct = noHold then .climb else .hold) ∧ ModeStepFrame x u

/-- A CLIMB order that is taken, with its reply DONE. -/
def climbDone (sender : Nat) (rest : List RxPost) (s t : State) : Prop :=
  ∃ u : State, repliedTo sender 1 .done (modeData u) u t ∧ climbTakes (judged rest s) u

/-- What a HOLD order taken in `x` leaves (R149): OPERATOR added in every mode, nothing cut. -/
def holdTakes (x u : State) : Prop :=
  u.mct = { x.mct with hold := { x.mct.hold with operator := true }, settling := u.mct.settling } ∧
    (modeOf x.mct = .climb → modeOf u.mct = .hold) ∧ (modeOf x.mct ≠ .climb → modeOf u.mct = modeOf x.mct) ∧
    (modeOf x.mct = .climb → x.ssq.phase ≠ .idle → u.mct.settling = true) ∧ ModeStepFrame x u

/-- The first readiness check of R147 that fails, in the table's order. The last is a peer within six sectors of the own one, the
shorter way around the ring, whose sector another peer or this node has as well (R38). -/
def notReady (s : State) : Option Reason :=
  if s.srs.loadResult = .default then some .settingsDefault
  else if s.srs.calibrationPending = true then some .calibrationPending
  else if s.ssq.heightValid = false then some .noHeight
  else if s.lco.known = false then some .columnUnknown
  else if
      s.pvw.peers.any fun p =>
        decide
            (min ((p.sector + ringOf s.srs.active - sectorOf s.srs.active % ringOf s.srs.active) % ringOf s.srs.active)
                ((sectorOf s.srs.active + ringOf s.srs.active - p.sector % ringOf s.srs.active) % ringOf s.srs.active) ≤
              6) &&
          (s.pvw.peers.any (fun q => decide (q.station ≠ p.station ∧ q.sector = p.sector)) ||
            decide (ownStation s ≠ 0 ∧ sectorOf s.srs.active = p.sector)) then
    some .clash
  else none

/-- The SAFE causes that R151 leaves: those whose condition still holds, and IDENTITY_CLASH and SECTOR_CLASH. -/
def clearLeaves (s : State) : SafeSet :=
  { spread :=
      s.mct.safe.spread &&
        (((currentReference s).href.map fun h => decide (s.srs.active.spreadAlarm < (h - s.ssq.height).natAbs)).getD false)
    strokeRepeat := false
    overpressure := s.mct.safe.overpressure && s.ssq.overpressure
    valve := s.mct.safe.valve && (s.ssq.liftCoilOpen || s.ssq.releaseCoilOpen)
    sectorClash := s.mct.safe.sectorClash
    identityClash := s.mct.safe.identityClash
    restored := false }

/-- What an order that sets own height to `h` leaves (R80, R81, R84, R85): the height, valid, the height-limit mark cleared below
1,000,000, and the column shifted with it. -/
def heightSetTo (sender : Nat) (h : Int) (rest : List RxPost) (s t : State) : Prop :=
  ∃ u : State, repliedTo sender 6 .done (beBytes 3 h) u t ∧
    u = ((judged rest s).setSsq
      { s.ssq with
        height := h, heightValid := true, heightLimit := if h < 1000000 then false else s.ssq.heightLimit }).setLco
      (if h = s.ssq.height then s.lco else shiftColumn (h - s.ssq.height) h s.lco)

end Sys2Proof.Machine
end

