-- ==== Sys2Proof/Certificates/Slice0/Obligations.lean ====
section
/-! DEFINITION. The statements for the provers. -/

open Sys2Proof Sys2Proof.Machine

/-! ### The queue and the interface -/

/-- A step takes the command at the front of the queue and runs it with the queue's rest; on an empty queue a millisecond passes
(the model's choice, log entry 1), which moves the timers on and nothing else: none while the node is stopped; LIF's quiet time,
not counted while it sends, the end of a framing error's wait, the LEVEL timer and the rejoin timer in MUTE, and the join listen,
also while a RESTART waits; and the other blocks' timers while they run (R12, R28, R34, R35, R47, R92, R155, R161, R167, R172,
R200, R201, R203). No word of the table spells a command (log entry 5). LIF runs while the node is up and the other blocks while
no RESTART waits besides (R188). The node's time in milliseconds counts on with them; its value at a start, which no rule gives,
is the model's choice (log entry 42). -/
def Obligations.StepTakesFront : Prop :=
  (∀ (c : Instr) (rest : List Instr) (s : State), s.pending = c :: rest → step s = exec c (s.setPending rest)) ∧
    (∀ s : State, s.pending = [] →
      ∃ t, step s = .next t ∧
        (s.srs.life ≠ .up → t = s) ∧
        (s.srs.life = .up →
          t.srs = { s.srs with joinMs := if s.srs.step = .joinListen then min 2000 (s.srs.joinMs + 1) else s.srs.joinMs } ∧
          t.lif =
            { s.lif with
              quietUs := t.lif.quietUs
              byteLeftUs := t.lif.byteLeftUs
              rx := t.lif.rx
              levelMs := s.lif.levelMs.map fun n => min 500 (n + 1)
              rejoinMs := if s.lif.muted then min 65535 (s.lif.rejoinMs + 1) else s.lif.rejoinMs } ∧
          (s.lif.transmitter ≠ none →
            t.lif.quietUs = s.lif.quietUs ∧ t.lif.rx = s.lif.rx ∧
              (s.lif.byteLeftUs ≤ 10 * bitTimeUs s.srs.active →
                0 < t.lif.byteLeftUs ∧ t.lif.byteLeftUs ≤ 10 * bitTimeUs s.srs.active ∧
                  ∃ k, t.lif.byteLeftUs + 1000 = s.lif.byteLeftUs + k * (10 * bitTimeUs s.srs.active))) ∧
          (s.lif.transmitter = none →
            t.lif.quietUs = s.lif.quietUs + (1000 - s.lif.byteLeftUs) ∧ t.lif.byteLeftUs = s.lif.byteLeftUs - 1000 ∧
              t.lif.rx =
                if s.lif.rx = .errored ∧ 3 < t.lif.quietUs / bitTimeUs s.srs.active then .ready else s.lif.rx) ∧
          (s.ors.restartWaiting = true → t = (s.setLif t.lif).setSrs t.srs) ∧
          (s.ors.restartWaiting = false →
            t.pvw = { s.pvw with peers := t.pvw.peers } ∧ t.pvw.peers.length = s.pvw.peers.length ∧
            (∀ (i : Nat) (p : Peer), s.pvw.peers[i]? = some p →
              t.pvw.peers[i]? =
                some
                  { p with
                    ageMs := min 30000 (p.ageMs + 1)
                    claim := p.claim.map fun c => { c with ageMs := min 1000 (c.ageMs + 1) } }) ∧
            t.lco = { s.lco with tickMs := min 60000 (s.lco.tickMs + 1) } ∧
            t.cpl =
              { s.cpl with cycleMs := s.cpl.cycleMs.map fun n => min (s.srs.active.cyclePeriod * 1000).toNat (n + 1) } ∧
            t.fct =
              { s.fct with
                travelMs :=
                  if s.fct.gate = .opening ∨ s.fct.gate = .closing then
                    min (s.srs.active.gateTravel * 1000).toNat (s.fct.travelMs + 1)
                  else s.fct.travelMs
                settleMs :=
                  if s.fct.ownClaim.map OwnClaim.sent = some true then min 1000 (s.fct.settleMs + 1) else s.fct.settleMs
                backoffMs :=
                  if s.fct.pour = .backoff then min s.fct.backoffLength (s.fct.backoffMs + 1) else s.fct.backoffMs } ∧
            t.ldr =
              (if s.ldr.lit then { s.ldr with slowMs := min 500 (s.ldr.slowMs + 1), fastMs := min 125 (s.ldr.fastMs + 1) }
              else s.ldr) ∧
            t.nowMs = s.nowMs + 1 ∧ t.ssq = s.ssq ∧ t.msq = s.msq ∧ t.mct = s.mct ∧ t.ors = s.ors ∧ t.pins = s.pins ∧
            t.freeCount = s.freeCount ∧ t.pending = s.pending))) ∧
    (∀ s : State, (lineRuns s = true ↔ s.srs.life = .up) ∧
      (blocksRun s = true ↔ s.srs.life = .up ∧ s.ors.restartWaiting = false)) ∧
    ∀ (s : State) (nbits w : Nat), decodeTableWord nbits w = none ∧ s.withFetchWord nbits w = s

/-- Every command completes in every state, and leaves the queue alone. -/
def Obligations.EveryCommandCompletes : Prop :=
  ∀ (c : Instr) (s : State), ∃ t, exec c s = .next t ∧ t.pending = s.pending

/-- An order's code and argument bytes by the table of R158 spell that order again. -/
def Obligations.OrderRoundTrip : Prop :=
  ∀ (i : Instr) (sender target : Nat) (code : Byte) (args : List Byte),
    orderParts i = some (sender, target, code, args) →
      (∀ a b c d, i ≠ .orderInvalid a b c d ∧ i ≠ .orderWhileStoring a b c d) →
        orderOf sender target code args = some i

/-- A post framed by R156 with a sender of six bits and fields in the ranges of R157 is judged clean by R161 and R162, and is the
post that was framed. The frame is the lead-in, the sender, the kind, the length, the payload, and the check of the parts after
the lead-in, its high byte first (R156); the payloads of LEVEL, CLAIM, GATE and HALT are spelled in the layout of R157; and a
frame is judged framing, check or clean by the conditions of R161 and R162 in their order: the check; then the kind and the length
allowed for it (R156); then the fields of a LEVEL, CLAIM, GATE or HALT post, each of a value that R157 lists; and a post that passes
them all is clean, as the post whose payload it carries. -/
def Obligations.PostRoundTrip : Prop :=
  (∀ (sender : Nat) (body : PostBody), sender ≤ 63 → body.fits = true →
    judgePost (frameOf sender body) = .clean { sender := sender, body := body }) ∧
  (∀ (sender : Nat) (body : PostBody) (part : List Byte) (r : BitVec 16),
    part =
        [byteOf sender, byteOf (kindNumber body), byteOf (payloadOf body).length] ++ payloadOf body →
      r = checkOf part →
        ∃ high low : Byte, frameOf sender body = 0xC3#8 :: (part ++ [high, low]) ∧
          (∀ i, i < 8 → high.getLsbD i = r.getLsbD (15 - i)) ∧ ∀ i, i < 8 → low.getLsbD i = r.getLsbD (7 - i)) ∧
  (∀ p, payloadOf (.level p) = levelBytes p) ∧
  (∀ p, payloadOf (.claim p) = beBytes 2 p.need ++ [byteOf p.number]) ∧
  (∀ p, payloadOf (.gate p) = [byteOf (gateNumber p.state)] ++ beBytes 2 p.needAtOpen ++ [byteOf (bit p.yielded 1)]) ∧
  (∀ p, payloadOf (.halt p) =
    [byteOf (match p.kind with | .climb => 1 | .all => 2 : Nat),
      byteOf
        (match p.reason with
          | .spread => 1 | .strokeRepeat => 2 | .overpressure => 3 | .valve => 4 | .sectorClash => 5 | .estop => 6 : Nat)]) ∧
  (∀ bytes : List Byte, bytes.length < 4 → judgePost bytes = .framing) ∧
  ∀ (lead sender kind len : Byte) (rest : List Byte),
    (lead ≠ 0xC3#8 ∨ 63 < sender.toNat ∨ 14 < len.toNat ∨ rest.length < len.toNat + 2 →
      judgePost (lead :: sender :: kind :: len :: rest) = .framing) ∧
    (lead = 0xC3#8 → sender.toNat ≤ 63 → len.toNat ≤ 14 → len.toNat + 2 ≤ rest.length →
      (checkOf (sender :: kind :: len :: rest.take (len.toNat + 2)) ≠ 0#16 →
        judgePost (lead :: sender :: kind :: len :: rest) = .check) ∧
      (checkOf (sender :: kind :: len :: rest.take (len.toNat + 2)) = 0#16 →
        (¬ KindAllowed kind.toNat len.toNat → judgePost (lead :: sender :: kind :: len :: rest) = .framing) ∧
          (KindAllowed kind.toNat len.toNat →
            (FieldsOutside kind.toNat (rest.take len.toNat) →
              judgePost (lead :: sender :: kind :: len :: rest) = .framing) ∧
            (¬ FieldsOutside kind.toNat (rest.take len.toNat) →
              ∃ body, judgePost (lead :: sender :: kind :: len :: rest) = .clean { sender := sender.toNat, body := body } ∧
                kindNumber body = kind.toNat ∧ payloadOf body = rest.take len.toNat ∧ body.fits = true))))

/-! ### What every step keeps -/

/-- The capacities of the column, the peer table, the history, the window and the FIFO (R1, R27, R86, R77, R164). -/
def Obligations.CapacitiesKept : Prop :=
  ∀ s t : State, Capacities s → step s = .next t → Capacities t

/-- The bounds of the garble bucket, and no post in the transmitter in MUTE (R171); and every age among the posts that wait and the
one in the transmitter below the next to be given, so that a post queued into an empty slot is the youngest (R166). -/
def Obligations.GarbleBoundsKept : Prop :=
  ∀ s t : State, step s = .next t →
    (GarbleBounds s.lif → GarbleBounds t.lif) ∧ (AgesOrdered s.lif → AgesOrdered t.lif)

/-- The lift enable is given in PRESSURIZE and LIFT alone, the release valve is on in RELEASE alone (R66, R67). And what the
output stages drive (R66, R67, R93): the lift coil with the duty in force while the enable is given; the release output never
while it is, so that the two valves are never driven together; the gate's drives as FCT gives them, the open drive held off in
SAFE. -/
def Obligations.ValvesInPhaseKept : Prop :=
  (∀ s t : State, ValvesInPhase s.ssq → step s = .next t → ValvesInPhase t.ssq) ∧
    ∀ s : State,
      (s.ssq.liftEnable = true → liftCoilDuty s.ssq = s.ssq.dutyInForce ∧ releaseCoilOn s.ssq = false) ∧
      (s.ssq.liftEnable = false → liftCoilDuty s.ssq = 0 ∧ releaseCoilOn s.ssq = s.ssq.releaseOn) ∧
      (ValvesInPhase s.ssq →
        (0 < liftCoilDuty s.ssq → s.ssq.phase = .pressurize ∨ s.ssq.phase = .lift) ∧
          (releaseCoilOn s.ssq = true → s.ssq.phase = .release)) ∧
      (openDriveOn s = true ↔ s.fct.motor = .openDrive ∧ modeOf s.mct ≠ .safe) ∧
      (closeDriveOn s = true ↔ s.fct.motor = .closeDrive) ∧
      ¬ (openDriveOn s = true ∧ closeDriveOn s = true)

/-- Own height stays within 0 to 1,000,000 and the trim within −32 to +31 (R61, R80). -/
def Obligations.HeightAndTrimKept : Prop :=
  ∀ s t : State, HeightAndTrimRanges s → step s = .next t → HeightAndTrimRanges t

/-- The state right after reset meets the eight invariants. -/
def Obligations.ResetMeetsInvariants : Prop :=
  Capacities State.reset ∧ GarbleBounds State.reset.lif ∧ AgesOrdered State.reset.lif ∧ WritesInOrder State.reset.srs ∧
    ValvesInPhase State.reset.ssq ∧ HeightAndTrimRanges State.reset ∧ ColumnKept State.reset ∧ PeersInOrder State.reset

/-- The SAFE cause IDENTITY_CLASH and LIF's silence last until a start, and while LIF is silent or in MUTE no post begins
(R40, R137, R171, R173). -/
def Obligations.IdentityClashLasts : Prop :=
  ∀ (c : Instr) (s t : State), exec c s = .next t →
    ((∀ x h, c ≠ .start x h) →
      (s.mct.safe.identityClash = true → t.mct.safe.identityClash = true) ∧ (s.lif.silent = true → t.lif.silent = true)) ∧
    ((s.lif.silent = true ∨ s.lif.muted = true) → s.lif.transmitter = none → t.lif.transmitter = none)

/-- The active settings are fixed until the next start but for the full stroke (R191), which only the completion of a successful
calibration stroke changes (R88, R197): the stroke in flight was of kind CALIBRATION, it is complete, and its measured full stroke
stands in the active and the staged copy with the pending mark clear. Over every step, the idle one too; a START of a node that is
up is no start (log entry 3). And the writes of the stored block stay in order (R195, R198, R201): the block is absent, neither old nor
new, exactly while a write is in progress, which none is in a node that is not up. -/
def Obligations.ActiveSettingsFixed : Prop :=
  ∀ s t : State, step s = .next t →
    (WritesInOrder s.srs → WritesInOrder t.srs) ∧
    ((∀ x h rest, s.pending = .start x h :: rest → s.srs.life = .up) →
      t.srs.active = { s.srs.active with fullStroke := t.srs.active.fullStroke } ∧
        (t.srs.active.fullStroke ≠ s.srs.active.fullStroke →
          s.ssq.stroke.map Stroke.kind = some .calibration ∧ t.ssq.phase = .idle ∧
            t.ssq.history.head?.map HistoryRec.cause = some .calibration ∧ t.srs.calibrationPending = false ∧
            t.srs.active.fullStroke.isSome = true ∧ t.srs.staged.fullStroke = t.srs.active.fullStroke))

/-! ### The mode orders -/

/-- CLIMB in SETUP (R147): BUSY unless SSQ is IDLE, then the readiness checks in their order, then running. The five checks are
spelled by notReady, what running does by climbDone, with the mode change that follows (R135,
R140). -/
def Obligations.ClimbFromSetup : Prop :=
  ∀ (sender target : Nat) (rest : List RxPost) (s : State),
    AddressedOrder sender target 1 [] rest s → NotStoring s → modeOf s.mct = .setup →
    ∃ t, exec (.climb sender target) s = .next t ∧
      (if s.ssq.phase ≠ .idle then repliedTo sender 1 (.refused .busy) (modeData s) (judged rest s) t
      else
        match notReady s with
        | some why => repliedTo sender 1 (.refused why) (modeData s) (judged rest s) t
        | none => climbDone sender rest s t)

/-- CLIMB with the base RUNNING, and in SAFE (R148). -/
def Obligations.ClimbWhileRunning : Prop :=
  ∀ (sender target : Nat) (rest : List RxPost) (s : State),
    AddressedOrder sender target 1 [] rest s → NotStoring s → modeOf s.mct ≠ .setup →
    ∃ t, exec (.climb sender target) s = .next t ∧
      (if modeOf s.mct = .safe then repliedTo sender 1 (.refused .mode) (modeData s) (judged rest s) t
      else climbDone sender rest s t)

/-- HOLD adds OPERATOR in every mode, cuts nothing, and is answered DONE (R149). What else the mode change from CLIMB brings is
spelled by holdTakes. -/
def Obligations.HoldAddsOperator : Prop :=
  ∀ (sender target : Nat) (rest : List RxPost) (s : State),
    AddressedOrder sender target 2 [] rest s → NotStoring s →
    ∃ t u, exec (.hold sender target) s = .next t ∧ repliedTo sender 2 .done (modeData u) u t ∧
      holdTakes (judged rest s) u

/-- SETUP (R150): in HOLD with SSQ IDLE and the gate CLOSED the base becomes SETUP; BUSY otherwise in HOLD; MODE elsewhere. -/
def Obligations.SetupOrder : Prop :=
  ∀ (sender target : Nat) (rest : List RxPost) (s : State),
    AddressedOrder sender target 3 [] rest s → NotStoring s →
    ∃ t, exec (.setup sender target) s = .next t ∧
      (if modeOf s.mct ≠ .hold then repliedTo sender 3 (.refused .mode) (modeData s) (judged rest s) t
      else if s.ssq.phase ≠ .idle ∨ s.fct.gate ≠ .closed then
        repliedTo sender 3 (.refused .busy) (modeData s) (judged rest s) t
      else
        ∃ u : State, repliedTo sender 3 .done (modeData u) u t ∧ u.mct = { s.mct with base := .setup } ∧
          modeOf u.mct = .setup ∧ ModeStepFrame (judged rest s) u)

/-- CLEAR (R142, R151, R152): in every mode the window is emptied, the overrun mark cleared and a JAMMED gate whose closed limit
is on CLOSED; in SAFE the causes whose conditions have ended leave, with RESTORED the restored list; the hold set stays but for
OPERATOR, added where the SAFE set empties with the base RUNNING; CAUSE_PRESENT while a cause or a JAMMED gate remains. The gate
freed from JAMMED reports its state in a GATE post and a wanted LEVEL post (R96, R97) and ends the pour block that the jam began,
where nothing else blocks (R100); a gate that is not JAMMED stays as it is, and out of SAFE the feed, the column and LIF beside
its FIFO stay with it. The block that SAFE made ends with it. -/
def Obligations.ClearOrder : Prop :=
  ∀ (sender target : Nat) (rest : List RxPost) (s : State),
    AddressedOrder sender target 4 [] rest s → NotStoring s →
    ∃ t u, exec (.clear sender target) s = .next t ∧
      repliedTo sender 4 (if u.mct.safe ≠ noSafe ∨ u.fct.gate = .jammed then .refused .causePresent else .done) (modeData u)
        u t ∧
      (∃ x y z,
        x = (judged rest s).setMct { s.mct with window := [] } ∧
        (s.fct.gate = .jammed ∧ s.pins.gateClosedLimit = true → ∃ w, gateCloses x w ∧ blockTested w y) ∧
        (¬ (s.fct.gate = .jammed ∧ s.pins.gateClosedLimit = true) → y = x) ∧
        z = y.setMsq { s.msq with overrun := false } ∧
        (modeOf s.mct = .safe → safeLeft (clearLeaves s) z u) ∧ (modeOf s.mct ≠ .safe → u = z)) ∧
      u.mct.window = [] ∧ u.msq = { s.msq with overrun := false } ∧
      u.mct.safe = (if modeOf s.mct = .safe then clearLeaves s else s.mct.safe) ∧
      u.mct =
        { s.mct with
          window := [], safe := u.mct.safe, restored := u.mct.restored
          hold :=
            if modeOf s.mct = .safe ∧ clearLeaves s = noSafe ∧ s.mct.base = .running then { s.mct.hold with operator := true }
            else s.mct.hold } ∧
      (modeOf s.mct = .safe → s.mct.safe.restored = true ∨ s.mct.restored = none → u.mct.restored = none) ∧
      (modeOf s.mct ≠ .safe → u.mct.restored = s.mct.restored) ∧
      (s.fct.gate = .jammed → u.fct.gate = (if s.pins.gateClosedLimit then .closed else .jammed)) ∧
      (modeOf s.mct ≠ .safe → s.fct.gate ≠ .jammed →
        u.fct = s.fct ∧ u.lco = s.lco ∧ u.lif = { s.lif with fifo := rest }) ∧
      u.ssq = s.ssq ∧ u.lif.fifo = rest ∧ u.ors.amend = false ∧ SameElsewhere s u

/-! ### The other orders -/

/-- TRIM UP, DOWN and SET (R61, R179): the trim limited to −32 to +31, and the reply carries it. -/
def Obligations.TrimOrders : Prop :=
  ∀ (sender target : Nat) (v : BitVec 8) (rest : List RxPost) (s : State), NotStoring s →
    (AddressedOrder sender target 5 [1] rest s →
      ∃ t, exec (.trimUp sender target) s = .next t ∧
        repliedTo sender 5 .done [byteOf (max (-32) (min 31 (s.cpl.trim + 1)))]
          ((judged rest s).setCpl { s.cpl with trim := max (-32) (min 31 (s.cpl.trim + 1)) }) t) ∧
    (AddressedOrder sender target 5 [2] rest s →
      ∃ t, exec (.trimDown sender target) s = .next t ∧
        repliedTo sender 5 .done [byteOf (max (-32) (min 31 (s.cpl.trim - 1)))]
          ((judged rest s).setCpl { s.cpl with trim := max (-32) (min 31 (s.cpl.trim - 1)) }) t) ∧
    (AddressedOrder sender target 5 [3, v] rest s →
      ∃ t, exec (.trimSet sender target v) s = .next t ∧
        repliedTo sender 5 .done [byteOf (max (-32) (min 31 v.toInt))]
          ((judged rest s).setCpl { s.cpl with trim := max (-32) (min 31 v.toInt) }) t)

/-- PLANE SET and WITHDRAW, addressed (R87, R179): the plane replaced and the laser-disagree mark cleared; RANGE above
1,000,000. -/
def Obligations.PlaneOrders : Prop :=
  ∀ (sender target : Nat) (v : BitVec 24) (rest : List RxPost) (s : State), NotStoring s →
    (AddressedOrder sender target 7 (1 :: bytes3 v) rest s →
      ∃ t, exec (.planeSet sender target v) s = .next t ∧
        (if 1000000 < v.toNat then repliedTo sender 7 (.refused .range) [] (judged rest s) t
        else
          repliedTo sender 7 .done (1 :: beBytes 3 v.toNat)
            ((judged rest s).setSsq { s.ssq with plane := some v.toNat, laserDisagree := false }) t)) ∧
    (AddressedOrder sender target 7 [2] rest s →
      ∃ t, exec (.planeWithdraw sender target) s = .next t ∧
        repliedTo sender 7 .done [0, 0, 0, 0] ((judged rest s).setSsq { s.ssq with plane := none, laserDisagree := false }) t)

/-- HEIGHT SET (R84): RANGE, then BUSY, then the new height. -/
def Obligations.HeightSet : Prop :=
  ∀ (sender target : Nat) (v : BitVec 24) (rest : List RxPost) (s : State),
    AddressedOrder sender target 6 (1 :: bytes3 v) rest s → NotStoring s →
    ∃ t, exec (.heightSet sender target v) s = .next t ∧
      (if 1000000 < v.toNat then repliedTo sender 6 (.refused .range) [] (judged rest s) t
      else if s.ssq.phase ≠ .idle then repliedTo sender 6 (.refused .busy) [] (judged rest s) t
      else heightSetTo sender v.toNat rest s t)

/-- HEIGHT ADOPT (R62, R85): BUSY, then NO_NEIGHBOUR where the basis would be self or none, then the reference as own height. The
reference of peers' heights within 0 to 1,000,000 lies there too. -/
def Obligations.HeightAdopt : Prop :=
  ∀ (sender target : Nat) (rest : List RxPost) (s : State),
    AddressedOrder sender target 6 [2] rest s → NotStoring s → HeightAndTrimRanges s → PeersInOrder s →
    ∃ t, exec (.heightAdopt sender target) s = .next t ∧
      (if s.ssq.phase ≠ .idle then repliedTo sender 6 (.refused .busy) [] (judged rest s) t
      else if (currentReference s).basis = .self ∨ (currentReference s).basis = .noBasis then
        repliedTo sender 6 (.refused .noNeighbour) [] (judged rest s) t
      else
        ∃ h : Int, (currentReference s).href = some h ∧ 0 ≤ h ∧ h ≤ 1000000 ∧
          heightSetTo sender h rest s t)

/-- WINDOW (R181): RANGE for an unknown collection, a first above last, or a last at or above the size; otherwise the cursor. The
sizes are those of the layer column, the peer table and the stroke history, by the codes 1, 2 and 3. -/
def Obligations.WindowOrder : Prop :=
  (∀ s : State, collectionSize .layers s = s.lco.column.length ∧ collectionSize .peers s = s.pvw.peers.length ∧
    collectionSize .strokes s = s.ssq.history.length) ∧
  (∀ (n : Nat) (c : Collection),
    collectionOfCode n = some c ↔ (n = 1 ∧ c = .layers) ∨ (n = 2 ∧ c = .peers) ∨ (n = 3 ∧ c = .strokes)) ∧
  ∀ (sender target : Nat) (code first last : Byte) (rest : List RxPost) (s : State),
    AddressedOrder sender target 8 [code, first, last] rest s → NotStoring s →
    ∃ t, exec (.window sender target code first last) s = .next t ∧
      (∀ c size, collectionOfCode code.toNat = some c → size = collectionSize c s → first.toNat ≤ last.toNat →
        last.toNat < size →
          repliedTo sender 8 .done [code, first, last, byteOf size]
            ((judged rest s).setOrs
              { s.ors with
                amend := false
                cursor :=
                  some { collection := c, first := first.toNat, last := last.toNat, position := first.toNat } }) t) ∧
      ((code.toNat = 0 ∨ 3 < code.toNat ∨ last.toNat < first.toNat ∨
          ∃ c, collectionOfCode code.toNat = some c ∧ collectionSize c s ≤ last.toNat) →
        repliedTo sender 8 (.refused .range) [] (judged rest s) t)

/-- READ (R160, R182, R183): RANGE, WINDOW without a cursor, WINDOW with the position returned to first at or above the size, or
DONE with the record's fields in the layout of R160 and the cursor advanced after part 1 outside amend mode. READ does not end
amend mode. The need and the number of an absent claim are free (log entry 11); a number beyond its field's width is sent by its low bytes (the model's
choice, log entry 28). -/
def Obligations.ReadOrder : Prop :=
  ∀ (sender target : Nat) (part : Byte) (rest : List RxPost) (s : State),
    AddressedOrder sender target 9 [part] rest s → NotStoring s →
    ∃ t, exec (.read sender target part) s = .next t ∧
      (1 < part.toNat → repliedTo sender 9 (.refused .range) [] (removed rest s) t) ∧
      (part.toNat ≤ 1 → s.ors.cursor = none → repliedTo sender 9 (.refused .window) [] (removed rest s) t) ∧
      ∀ k, part.toNat ≤ 1 → s.ors.cursor = some k →
        (collectionSize k.collection s ≤ k.position →
          repliedTo sender 9 (.refused .window) []
            ((removed rest s).setOrs { s.ors with cursor := some { k with position := k.first } }) t) ∧
        (k.position < collectionSize k.collection s →
          ∃ fields, RecordShown k.collection k.position part.toNat s fields ∧
            repliedTo sender 9 .done (byteOf (collectionCode k.collection * 16 + part.toNat : Nat) :: fields)
              (((removed rest s).setOrs
                { s.ors with
                  cursor :=
                    some
                      { k with
                        position :=
                          if part.toNat = 1 ∧ s.ors.amend = false then
                            (if k.position = k.last then k.first else k.position + 1)
                          else k.position } }).setFreeCount (s.freeCount + 1)) t)

/-- AMEND-BEGIN (R184) and AMEND (R25, R185). -/
def Obligations.AmendOrders : Prop :=
  ∀ (sender target : Nat) (v : BitVec 24) (rest : List RxPost) (s : State), NotStoring s →
    (AddressedOrder sender target 10 [] rest s →
      ∃ t, exec (.amendBegin sender target) s = .next t ∧
        (if modeOf s.mct ≠ .setup ∧ modeOf s.mct ≠ .hold then repliedTo sender 10 (.refused .mode) [] (judged rest s) t
        else if ∃ k, s.ors.cursor = some k ∧ k.collection = .layers then
          repliedTo sender 10 .done [] ((judged rest s).setOrs { s.ors with amend := true }) t
        else repliedTo sender 10 (.refused .window) [] (judged rest s) t)) ∧
    (AddressedOrder sender target 11 (bytes3 v) rest s →
      ∃ t, exec (.amend sender target v) s = .next t ∧
        (s.ors.amend = false → repliedTo sender 11 (.refused .state) [] (removed rest s) t) ∧
        ∀ k, s.ors.amend = true → s.ors.cursor = some k →
          (s.lco.column[k.position]? = none →
            repliedTo sender 11 (.refused .window) []
              ((removed rest s).setOrs { s.ors with cursor := some { k with position := k.first } }) t) ∧
          ∀ r, s.lco.column[k.position]? = some r →
            (r.state = .pouring → repliedTo sender 11 (.refused .state) [] (removed rest s) t) ∧
            (r.state ≠ .pouring → 9999999 < v.toNat → repliedTo sender 11 (.refused .range) [] (removed rest s) t) ∧
            (r.state ≠ .pouring → v.toNat ≤ 9999999 →
              repliedTo sender 11 .done (beBytes 2 r.id ++ beBytes 3 v.toNat)
                (((removed rest s).setOrs
                  { s.ors with
                    cursor :=
                      some { k with position := if k.position = k.last then k.first else k.position + 1 } }).setLco
                  { s.lco with
                    column :=
                      s.lco.column.set k.position
                        { r with maturity := v.toNat, flags := { r.flags with amended := true } } }) t))

/-- SETTING and DEFAULTS (R186): MODE, then KEY, then RANGE; otherwise the staged copy alone changes. And the ranges that RANGE
goes by (R192). And the default values (R192). -/
def Obligations.SettingAndDefaults : Prop :=
  ((List.range 43).map fieldRange =
    [none, some (1, 62), some (0, 47), some (3, 48), some (1, 3), some (1, 6), some (9000, 15000), some (0, 14999),
      some (0, 14999), some (0, 14999), some (0, 14999), some (0, 30000), some (20, 300), some (50, 300), some (10, 50),
      some (10, 100), some (0, 32), some (20, 300), some (100, 500), some (3000, 10000), some (60, 900), some (800, 2500),
      some (10, 500), some (1000, 3900), some (10, 200), some (0, 50), some (0, 60), some (2, 20), some (10000, 500000),
      some (20000, 9999999), some (-300, 200), some (-200, 300), some (1000, 10000), some (300, 9000), some (100, 2000),
      some (60, 600), some (2, 10), some (0, 95), some (0, 95), some (0, 95), some (0, 1), some (100, 600), none]) ∧
  ((List.range 43).map (fieldValue defaultSettings) =
    [none, some 0, some 0, some 48, some 2, some 2, some 12000, some 1500, some 4500, some 7500, some 10500, some 10000,
      some 150, some 250, some 20, some 60, some 12, some 150, some 300, some 6000, some 180, some 1200, some 50, some 3200,
      some 40, some 12, some 15, some 10, some 90000, some 180000, some (-100), some 20, some 2500, some 500, some 300,
      some 600, some 6, some 36, some 24, some 10, some 1, none, none]) ∧
  ∀ (sender target : Nat) (field : Byte) (v : BitVec 32) (rest : List RxPost) (s : State), NotStoring s →
    (AddressedOrder sender target 12 (field :: bytes4 v) rest s →
      ∃ t, exec (.setting sender target field v) s = .next t ∧
        (if modeOf s.mct ≠ .setup then repliedTo sender 12 (.refused .mode) [] (judged rest s) t
        else if s.mct.key ≠ .service then repliedTo sender 12 (.refused .key) [] (judged rest s) t
        else
          match fieldRange field.toNat with
          | none => repliedTo sender 12 (.refused .range) [] (judged rest s) t
          | some (lo, hi) =>
            if lo ≤ v.toInt ∧ v.toInt ≤ hi then
              ∃ c : Settings, fieldValue c field.toNat = some v.toInt ∧
                (∀ n, n ≠ field.toNat → fieldValue c n = fieldValue s.srs.staged n) ∧
                repliedTo sender 12 .done (field :: beBytes 4 v.toInt)
                  ((judged rest s).setSrs { s.srs with staged := c }) t
            else repliedTo sender 12 (.refused .range) [] (judged rest s) t)) ∧
    (AddressedOrder sender target 14 [] rest s →
      ∃ t, exec (.defaults sender target) s = .next t ∧
        (if modeOf s.mct ≠ .setup then repliedTo sender 14 (.refused .mode) [] (judged rest s) t
        else if s.mct.key ≠ .service then repliedTo sender 14 (.refused .key) [] (judged rest s) t
        else
          repliedTo sender 14 .done []
            ((judged rest s).setSrs { s.srs with staged := defaultSettings, defaultsTaken := true }) t))

/-- STORE (R187, R195): MODE, KEY, NO_BASE; otherwise the mark is set and the write begins, from which on
the stored block is neither the old nor the new one, or waits, with no reply. -/
def Obligations.StoreOrder : Prop :=
  ∀ (sender target : Nat) (rest : List RxPost) (s : State),
    AddressedOrder sender target 13 [] rest s → NotStoring s →
    ∃ t, exec (.store sender target) s = .next t ∧
      (if modeOf s.mct ≠ .setup then repliedTo sender 13 (.refused .mode) [] (judged rest s) t
      else if s.mct.key ≠ .service then repliedTo sender 13 (.refused .key) [] (judged rest s) t
      else if s.srs.loadResult ≠ .good ∧ s.srs.checkAgreed = false ∧ s.srs.defaultsTaken = false then
        repliedTo sender 13 (.refused .noBase) [] (judged rest s) t
      else
        t =
          ((judged rest s).setOrs { s.ors with amend := false, storeWaiting := some sender }).setSrs
            (if s.srs.write = none then
              { s.srs with write := some { block := s.srs.staged, forStore := true }, stored := none }
            else { s.srs with writesWaiting := s.srs.writesWaiting ++ [{ block := s.srs.staged, forStore := true }] }))

/-- STORE_WRITE_DONE (R187, R195, R201): the stored block is the block written, with the check computed over it (over the model's
layout of its bytes, log entry 29), which agrees, unless the next write begins; for a STORE the mark is cleared and the DONE reply
queued; a waiting RESTART whose reply has gone, LIF running on meanwhile (log entry 44), begins with the last write, which ends the
restart-waiting mark (R176). -/
def Obligations.StoreWriteDone : Prop :=
  ∀ (w : BlockWrite) (s : State), s.srs.write = some w → s.srs.life = .up →
    ∃ u v, exec .storeWriteDone s =
        .next
          (if s.ors.restartWaiting = true ∧ s.srs.restartReady = true ∧ s.srs.writesWaiting = [] then
            restartBegun v
          else v) ∧
      u =
        s.setSrs
          { s.srs with
            stored :=
              if s.srs.writesWaiting = [] then some { fields := w.block, check := crcOf (settingBytes w.block) } else none
            write := s.srs.writesWaiting.head?
            writesWaiting := s.srs.writesWaiting.tail } ∧
      (∀ b, u.srs.stored = some b → b.checkAgrees = true) ∧
      (w.forStore = false ∨ s.ors.storeWaiting = none → v = u) ∧
      ∀ sender, w.forStore = true → s.ors.storeWaiting = some sender →
        v = (u.setOrs { s.ors with storeWaiting := none }).setLif (queueReplyPost (replyPayload sender 13 .done []) s.lif)

/-- CALIBRATE (R88, R189): MODE, KEY, STATE, BUSY; otherwise a stroke of kind CALIBRATION enters PRESSURIZE. What the start of a
stroke does is spelled by strokeStarted: the START trigger taken at once, pending behind a chain in flight, or lost with the
substituted copy and the overrun mark (R122, R125, R126). -/
def Obligations.CalibrateOrder : Prop :=
  ∀ (sender target : Nat) (rest : List RxPost) (s : State),
    AddressedOrder sender target 15 [] rest s → NotStoring s →
    ∃ t, exec (.calibrate sender target) s = .next t ∧
      (if modeOf s.mct ≠ .setup then repliedTo sender 15 (.refused .mode) [] (judged rest s) t
      else if s.mct.key ≠ .service then repliedTo sender 15 (.refused .key) [] (judged rest s) t
      else if s.lco.known = false ∨ ∃ r ∈ s.lco.column, (r.maturity : Int) < s.srs.active.mRel then
        repliedTo sender 15 (.refused .state) [] (judged rest s) t
      else if s.ssq.phase ≠ .idle then repliedTo sender 15 (.refused .busy) [] (judged rest s) t
      else
        ∃ u : State, repliedTo sender 15 .done [] u t ∧ strokeStarted .calibration none (judged rest s) u)

/-- RESTART (R176, R188, R201): MODE in CLIMB, BUSY, or the save with its RESTART marking, the waiting mark, and everything but LIF
stopped; in MUTE or silence, with no write in progress, the restart begins at once, which ends the mark. The extension
saved is that of log entries 33 and 37, and a reply discarded where MUTE and silence both hold that of log entry 36. -/
def Obligations.RestartOrder : Prop :=
  ∀ (sender target : Nat) (rest : List RxPost) (s : State),
    AddressedOrder sender target 16 [] rest s → NotStoring s →
    ∃ t, exec (.restart sender target) s = .next t ∧
      (if modeOf s.mct = .climb then repliedTo sender 16 (.refused .mode) [] (judged rest s) t
      else if s.ssq.phase ≠ .idle ∨ s.fct.gate ≠ .closed then
        repliedTo sender 16 (.refused .busy) [] (judged rest s) t
      else
        t.ors = { s.ors with amend := false, restartWaiting := decide (t.srs.life = .up) } ∧ t.srs.areaValid = true ∧ t.srs.outage = 0 ∧
        (∃ a, t.srs.area = some a ∧ AreaSaved true s a) ∧ OutputsStopped s t ∧
        t.lco = endLayer s.ssq.height s.srs.active.lMin .blocked s.lco ∧
        t.srs.life = (if (s.lif.muted = true ∨ s.lif.silent = true) ∧ s.srs.write = none then .restarting else .up) ∧
        t.lif = queueReplyPost (replyPayload sender 16 .done []) { s.lif with fifo := rest } ∧
        t.pvw = s.pvw ∧ t.cpl = s.cpl ∧ t.mct = s.mct ∧ t.pins = s.pins ∧ t.srs.active = s.srs.active ∧
        t.srs.staged = s.srs.staged ∧ t.srs.stored = s.srs.stored)

/-- STATUS (R159, R160, R190): DONE with the page and its fields in the layout of R160 for pages 0 to 8, RANGE above; no state
changes but what every addressed order changes. The minute of page 7 before the first expiry is free (log entry 11). The model's choices
besides: an absent restored list is sent as 0, and a number beyond its field's width by its low bytes (log entry 28); before the first
expiry the absent basis is sent as none and the absent skipped mark as no (log entry 32). -/
def Obligations.StatusOrder : Prop :=
  ∀ (sender target : Nat) (page : Byte) (rest : List RxPost) (s : State),
    AddressedOrder sender target 17 [page] rest s → NotStoring s →
    ∃ t, exec (.status sender target page) s = .next t ∧
      (page.toNat ≤ 8 →
        ∃ fields, PageShown page.toNat s fields ∧
          repliedTo sender 17 .done (page :: fields) ((judged rest s).setFreeCount (s.freeCount + 1)) t) ∧
      (8 < page.toNat → repliedTo sender 17 (.refused .range) [] (judged rest s) t)

/-- An addressed order that spells none of R158 is refused RANGE with no other effect; a ring-wide one is ignored (R177). The data
listed for the refused code are the model's reading of R159 (log entry 17). No order of the own number, of a sender outside 1 to
62 or for another station is offered to ORS: it changes nothing (R163, R177). Which data they are is spelled for every code. -/
def Obligations.InvalidOrders : Prop :=
  (∀ (code : Byte) (s : State),
    refusedData code s =
      if 1 ≤ code.toNat ∧ code.toNat ≤ 4 then modeData s else if code.toNat = 5 then [byteOf s.cpl.trim] else []) ∧
  ∀ (sender target : Nat) (code : Byte) (args : List Byte) (rest : List RxPost) (s : State),
    orderOf sender target code args = none → NotStoring s →
    (AddressedOrder sender target code args rest s →
      ∃ t, exec (.orderInvalid sender target code args) s = .next t ∧
        repliedTo sender code (.refused .range) (refusedData code s)
          (if code = 9 ∨ code = 11 then removed rest s else judged rest s) t) ∧
    (RingOrder sender code args rest s →
      exec (.orderInvalid sender 63 code args) s = .next (removed rest s)) ∧
    ∀ (i : Instr) (sent goal : Nat) (order : Byte) (given : List Byte), orderParts i = some (sent, goal, order, given) →
      sent = ownStation s ∨ sent = 0 ∨ 62 < sent ∨ (goal ≠ ownStation s ∧ goal ≠ 63) → exec i s = .next s

/-- While the store-waiting mark is set every addressed order is refused BUSY with no other effect, and every ring-wide order is
ignored, whichever command stands for it (R177). -/
def Obligations.BusyWhileStoring : Prop :=
  ∀ (i : Instr) (sender target : Nat) (code : Byte) (args : List Byte) (rest : List RxPost) (s : State),
    orderParts i = some (sender, target, code, args) → (∀ a b c d, i ≠ .orderInvalid a b c d) → ¬ NotStoring s →
    (AddressedOrder sender target code args rest s →
      ∃ t, exec i s = .next t ∧
        repliedTo sender code (.refused .busy) (refusedData code s)
          (if code = 9 ∨ code = 11 then removed rest s else judged rest s) t) ∧
    (target = 63 → RingOrder sender code args rest s → exec i s = .next (removed rest s))

/-- Ring-wide orders (R87, R153, R177): CLIMB, HOLD and PLANE act as addressed and get no reply; every other order is ignored.
CLIMB and HOLD have the effects of the addressed ones, spelled by climbTakes and holdTakes; a CLIMB refused takes nothing but the
post. -/
def Obligations.RingWideOrders : Prop :=
  ∀ (sender : Nat) (rest : List RxPost) (s : State), NotStoring s →
    (RingOrder sender 1 [] rest s →
      ∃ t, exec (.climb sender 63) s = .next t ∧
        (modeOf s.mct = .safe ∨ (modeOf s.mct = .setup ∧ (s.ssq.phase ≠ .idle ∨ notReady s ≠ none)) → t = removed rest s) ∧
        (modeOf s.mct ≠ .safe → (modeOf s.mct = .setup → s.ssq.phase = .idle ∧ notReady s = none) →
          climbTakes (removed rest s) t)) ∧
    (RingOrder sender 2 [] rest s → ∃ t, exec (.hold sender 63) s = .next t ∧ holdTakes (removed rest s) t) ∧
    (∀ v : BitVec 24, RingOrder sender 7 (1 :: bytes3 v) rest s →
      exec (.planeSet sender 63 v) s =
        .next
          (if 1000000 < v.toNat then removed rest s
          else (removed rest s).setSsq { s.ssq with plane := some v.toNat, laserDisagree := false })) ∧
    (RingOrder sender 7 [2] rest s →
      exec (.planeWithdraw sender 63) s =
        .next ((removed rest s).setSsq { s.ssq with plane := none, laserDisagree := false })) ∧
    ∀ (i : Instr) (code : Byte) (args : List Byte), orderParts i = some (sender, 63, code, args) →
      code ≠ 1 → code ≠ 2 → code ≠ 7 → (∀ a b c d, i ≠ .orderInvalid a b c d ∧ i ≠ .orderWhileStoring a b c d) →
        RingOrder sender code args rest s → exec i s = .next (removed rest s)

/-! ### The layer column -/

/-- The column stays in order through every step (R1, R2, R3, R5, R8, R9, R11, R21). -/
def Obligations.ColumnStaysInOrder : Prop :=
  ∀ s t : State, ColumnKept s → step s = .next t → ColumnKept t

/-- The peer table stays in order through every step, the waiting commands being well formed (R27 to R29, R31, R37). -/
def Obligations.PeersStayInOrder : Prop :=
  ∀ s t : State, PeersInOrder s → step s = .next t → PeersInOrder t

/-- TICK (R12 to R15): the run clock and every record's gain, from the nearest good probe, the shallower of two equally near, or
from the fallback temperature with its flag where no probe is good. POUR_DURATION_COUNT (R4): a second of the pour. The probes are
those whose channel is GOOD, each at its depth (R14). -/
def Obligations.ColumnTimes : Prop :=
  (∀ (c : Settings) (t : ChanTable) (p : Int × Int),
    p ∈ probesOf c t ↔
      ∃ e, e.state = .good ∧ e.value = some p.2 ∧
        (p.1, e) ∈ [(c.probe1, t.t1), (c.probe2, t.t2), (c.probe3, t.t3), (c.probe4, t.t4)]) ∧
  ∀ s : State, blocksRun s = true →
    (∃ t, exec .tick s = .next t ∧
      t = s.setLco
        { s.lco with runClock := min 9999999 (s.lco.runClock + 1), tickMs := 0, column := t.lco.column } ∧
      t.lco.column.length = s.lco.column.length ∧
      ∀ (i : Nat) (r : Layer), s.lco.column[i]? = some r →
        (probesOf s.srs.active s.msq.table = [] →
          t.lco.column[i]? =
            some
              { r with
                maturity := min 9999999 (r.maturity + (max 0 (s.srs.active.fallback - s.srs.active.datum)).toNat)
                flags := { r.flags with fallbackUsed := true } }) ∧
        (probesOf s.srs.active s.msq.table ≠ [] →
          ∃ p ∈ probesOf s.srs.active s.msq.table,
            (∀ q ∈ probesOf s.srs.active s.msq.table,
              ((s.ssq.height + s.srs.active.formHeight - (r.bottom + r.top) / 2) - p.1).natAbs ≤
                  ((s.ssq.height + s.srs.active.formHeight - (r.bottom + r.top) / 2) - q.1).natAbs ∧
                (((s.ssq.height + s.srs.active.formHeight - (r.bottom + r.top) / 2) - q.1).natAbs =
                    ((s.ssq.height + s.srs.active.formHeight - (r.bottom + r.top) / 2) - p.1).natAbs →
                  p.1 ≤ q.1)) ∧
            t.lco.column[i]? =
              some { r with maturity := min 9999999 (r.maturity + (max 0 (p.2 - s.srs.active.datum)).toNat) })) ∧
    exec .pourDurationCount s =
      .next
        (if ∃ r ∈ s.lco.column, r.state = .pouring then
          s.setLco { s.lco with pourSeconds := min 65535 (s.lco.pourSeconds + 1) }
        else s)

/-- The release cap (R18). -/
def Obligations.ReleaseCap : Prop :=
  ∀ (mRel own : Int) (l : Lco),
    ((∀ r ∈ l.column, mRel ≤ (r.maturity : Int)) → crel mRel own l = none) ∧
    ∀ (older younger : List Layer) (r : Layer), l.column = older ++ r :: younger →
      (∀ x ∈ older, mRel ≤ (x.maturity : Int)) → (r.maturity : Int) < mRel →
        crel mRel own l = some (max 0 (r.bottom - own))

/-- An open request and an end request at LCO (R3 to R5, R7 to R9), on a column in order: a new POURING record on top, with the
first id from the counter on that no record carries, or the youngest of a full column reopened; at the end the record's top kept,
a thin pour merged into the record before it with its long-pour and yield-ended flags, and nothing left at or below own height at
the old end. And what the end of a record, the release and a shift do by themselves (R9 to R11): the record that ends, and every
other kept record as it was but for EXITING; every bottom and top moved by the amount and limited to 0 to 1,000,000, the depth
reference with the same limit, and nothing else of a record changed; then the records of top at or below own height removed from
the old end up to the POURING one, counted in the release total, and the one that own height lies within EXITING. -/
def Obligations.PourLayers : Prop :=
  (∀ (own : Int) (l : Lco), released own l (releasePass own l)) ∧
  (∀ (d own : Int) (l : Lco), shifted d own l (shiftColumn d own l)) ∧
  ∀ (own lMin : Int) (reason : EndReason) (l : Lco), ColumnInOrder l.column → l.nextId < 65536 →
    ((∀ r ∈ l.column, r.state ≠ .pouring) → l.column.length < 12 →
      ∃ r, openLayer own l =
          { l with
            column := l.column ++ [r], nextId := (r.id + 1) % 65536, depthRef := some r.bottom, pourSeconds := 0 } ∧
        r = { id := r.id, state := .pouring, bottom := r.bottom, top := r.bottom, maturity := 0, pourStart := l.runClock,
              duration := none, flags := noLayerFlags } ∧
        r.id ∉ l.column.map Layer.id ∧
        (∃ k, r.id = (l.nextId + k) % 65536 ∧ ∀ j, j < k → (l.nextId + j) % 65536 ∈ l.column.map Layer.id) ∧
        r.bottom = (match l.column.getLast? with | some y => y.top | none => own)) ∧
    (∀ older y, l.column = older ++ [y] → (∀ r ∈ l.column, r.state ≠ .pouring) → l.column.length = 12 →
      openLayer own l =
        { l with
          column :=
            older ++
              [{ y with
                 state := .pouring, maturity := 0, flags := { y.flags with merged := true }, pourStart := l.runClock,
                 duration := none }]
          depthRef := none
          pourSeconds := 0 }) ∧
    ((∃ r ∈ l.column, r.state = .pouring) → openLayer own l = l) ∧
    ((∀ r ∈ l.column, r.state ≠ .pouring) → endLayer own lMin reason l = l) ∧
    (∀ older r, l.column = older ++ [r] → r.state = .pouring →
      (∀ before y, older = before ++ [y] → (∃ d, l.depthRef = some d ∧ r.top - d < lMin) →
        released own { l with column := before ++ [endedInto own reason l.pourSeconds r (some y)], depthRef := none }
          (endLayer own lMin reason l)) ∧
      ((older = [] ∨ ¬ ∃ d, l.depthRef = some d ∧ r.top - d < lMin) →
        released own { l with column := older ++ [endedInto own reason l.pourSeconds r none], depthRef := none }
          (endLayer own lMin reason l)) ∧
      ∀ x ∈ (endLayer own lMin reason l).column, own < x.top ∧ x.state ≠ .pouring ∧ (x.bottom ≤ own → x.state = .exiting))

/-! ### The peer view -/

/-- LEVEL_TAKEN (R29 to R31, R34, R38, R39): a sector outside the ring discards the post; a first post creates the entry, or sets
the table-full mark; a later one replaces the LEVEL fields, and a claim lapses by the post's gate and pour states. The
sector-clash condition follows the table, and its SAFE cause with it. A post of a sender outside 1 to 62 is discarded; one of the
own number is not in the FIFO to be taken (R163). What the cause brings, and what its leaving leaves, is spelled by clashTested
(R141, R142). -/
def Obligations.LevelTaken : Prop :=
  ∀ (sender : Nat) (p : LevelPost) (rest : List RxPost) (s : State),
    (sender = ownStation s → exec (.levelTaken sender p) s = .next s) ∧
    (PostOutside sender (.level p) rest s → exec (.levelTaken sender p) s = .next (removed rest s)) ∧
    (PostTaken sender (.level p) rest s →
    ∃ t, exec (.levelTaken sender p) s = .next t ∧
      (ringOf s.srs.active ≤ p.sector → t = removed rest s) ∧
      (p.sector < ringOf s.srs.active →
        (findPeer sender s.pvw.peers = none → 47 ≤ s.pvw.peers.length →
          t = (removed rest s).setPvw { s.pvw with tableFull := true }) ∧
        ((findPeer sender s.pvw.peers).isSome = true ∨ s.pvw.peers.length < 47 →
          t.pvw.tableFull = s.pvw.tableFull ∧ t.pvw.identityClash = s.pvw.identityClash ∧
          t.pvw.sectorClash = sectorClashes (ownStation s) (sectorOf s.srs.active) t.pvw.peers ∧
          (s.pvw.sectorClash = false → t.pvw.sectorClash = true → t.mct.safe.sectorClash = true) ∧
          (s.pvw.sectorClash = true → t.pvw.sectorClash = false → t.mct.safe.sectorClash = false) ∧
          (∃ u, clashTested ((removed rest s).setPvw { s.pvw with peers := t.pvw.peers }) u ∧ t.mct = u.mct ∧
            t.ssq = u.ssq ∧ t.msq = u.msq ∧ t.ors = u.ors ∧ (u.fct.pour ≠ .pouring → u.fct.pour ≠ .want → t = u)) ∧
          (t.pvw.sectorClash = s.pvw.sectorClash → s.fct.pour ≠ .pouring → s.fct.pour ≠ .want →
            t = (removed rest s).setPvw { s.pvw with peers := t.pvw.peers }) ∧
          t.lif.fifo = rest ∧ t.ssq.height = s.ssq.height ∧ t.ssq.heightValid = s.ssq.heightValid ∧ t.cpl = s.cpl ∧
          t.srs = s.srs ∧ t.ldr = s.ldr ∧ t.pins = s.pins) ∧
        (findPeer sender s.pvw.peers = none → s.pvw.peers.length < 47 →
          ∀ x, x ∈ t.pvw.peers ↔
            x ∈ s.pvw.peers ∨
              x = { station := sender, sector := p.sector, height := p.height, heightValid := p.flags.heightValid,
                    mode := p.mode, strokeCount := p.strokeCount, gate := p.gate, pour := p.pour, need := p.need,
                    needAtOpen := none, claim := none, ageMs := 0 }) ∧
        ∀ e, findPeer sender s.pvw.peers = some e →
          ∀ x, x ∈ t.pvw.peers ↔
            (x ∈ s.pvw.peers ∧ x.station ≠ sender) ∨
              x = { station := sender, sector := p.sector, height := p.height, heightValid := p.flags.heightValid,
                    mode := p.mode, strokeCount := p.strokeCount, gate := p.gate, pour := p.pour, need := p.need,
                    needAtOpen := if p.gate = .closed then none else e.needAtOpen,
                    claim := if p.gate = .closed ∧ p.pour = .claiming then e.claim else none, ageMs := 0 }))

/-- CLAIM_TAKEN and GATE_TAKEN (R29, R32 to R34, R163): discarded without an entry and from a sender outside 1 to 62, and not in
the FIFO to be taken with the own number; otherwise the entry's claim, or its gate state, need at open and claim, are replaced.
The yield test that the change of the table may bring is FeedSignals'. -/
def Obligations.ClaimAndGateTaken : Prop :=
  ∀ (sender : Nat) (rest : List RxPost) (s : State),
    (∀ (p : ClaimPost) (q : GatePost), sender = ownStation s →
      exec (.claimTaken sender p) s = .next s ∧ exec (.gateTaken sender q) s = .next s) ∧
    (∀ p : ClaimPost, PostOutside sender (.claim p) rest s → exec (.claimTaken sender p) s = .next (removed rest s)) ∧
    (∀ p : GatePost, PostOutside sender (.gate p) rest s → exec (.gateTaken sender p) s = .next (removed rest s)) ∧
    (∀ p : ClaimPost, PostTaken sender (.claim p) rest s →
      ∃ t, exec (.claimTaken sender p) s = .next t ∧
        (findPeer sender s.pvw.peers = none → t = removed rest s) ∧
        ∀ e, findPeer sender s.pvw.peers = some e →
          (∀ x, x ∈ t.pvw.peers ↔
            (x ∈ s.pvw.peers ∧ x.station ≠ sender) ∨
              x = { e with ageMs := 0, claim := some { need := p.need, number := p.number, ageMs := 0 } }) ∧
          t.lif.fifo = rest ∧ t.ssq = s.ssq ∧ t.msq = s.msq ∧ t.mct = s.mct ∧ t.cpl = s.cpl ∧ t.srs = s.srs ∧ t.ors = s.ors ∧
          (s.fct.pour ≠ .pouring → t = (removed rest s).setPvw { s.pvw with peers := t.pvw.peers })) ∧
    ∀ p : GatePost, PostTaken sender (.gate p) rest s →
      ∃ t, exec (.gateTaken sender p) s = .next t ∧
        (findPeer sender s.pvw.peers = none → t = removed rest s) ∧
        ∀ e, findPeer sender s.pvw.peers = some e →
          (∀ x, x ∈ t.pvw.peers ↔
            (x ∈ s.pvw.peers ∧ x.station ≠ sender) ∨
              x = { e with
                    ageMs := 0, gate := p.state, needAtOpen := if p.state = .closed then none else some p.needAtOpen,
                    claim := if p.state = .closed then e.claim else none }) ∧
          t.lif.fifo = rest ∧ t.ssq.height = s.ssq.height ∧ t.cpl = s.cpl ∧ t.srs = s.srs ∧
          (sectorClashes (ownStation s) (sectorOf s.srs.active) t.pvw.peers = s.pvw.sectorClash →
            t.mct = s.mct ∧ t.ssq = s.ssq ∧ t.msq = s.msq ∧ t.ors = s.ors ∧
              (s.fct.pour ≠ .pouring → s.fct.pour ≠ .want →
                t = (removed rest s).setPvw { s.pvw with peers := t.pvw.peers }))

/-- CLAIM_LAPSE, PEER_STALE and PEER_DROP (R34 to R36, R39). The sector-clash condition is tested with each drop, and its SAFE
cause follows it (R141, R142). The age that makes an entry stale is 2,000 ms. -/
def Obligations.PeerTimes : Prop :=
  ∀ (station : Nat) (e : Peer) (s : State), blocksRun s = true → findPeer station s.pvw.peers = some e →
    (∃ t, exec (.claimLapse station) s = .next t ∧
      (e.claim = none → t = s) ∧
      (e.claim ≠ none →
        (∀ x, x ∈ t.pvw.peers ↔ (x ∈ s.pvw.peers ∧ x.station ≠ station) ∨ x = { e with claim := none }) ∧
        t.mct = s.mct ∧ t.ssq = s.ssq ∧ t.msq = s.msq ∧
        (s.fct.pour ≠ .pouring → t = s.setPvw { s.pvw with peers := t.pvw.peers }))) ∧
    (∃ t, exec (.peerStale station) s = .next t ∧ t = s.setPvw { s.pvw with peers := t.pvw.peers } ∧
      (∀ x, x ∈ t.pvw.peers ↔ (x ∈ s.pvw.peers ∧ x.station ≠ station) ∨ x = { e with ageMs := max e.ageMs 2000 }) ∧
      ∀ x ∈ t.pvw.peers, x.station = station → 2000 ≤ x.ageMs) ∧
    (∃ t, exec (.peerDrop station) s = .next t ∧
      (∀ x, x ∈ t.pvw.peers ↔ x ∈ s.pvw.peers ∧ x.station ≠ station) ∧ t.pvw.tableFull = false ∧
      t.pvw.sectorClash = sectorClashes (ownStation s) (sectorOf s.srs.active) t.pvw.peers ∧
      (s.pvw.sectorClash = true → t.pvw.sectorClash = false → t.mct.safe.sectorClash = false) ∧
      (∃ u, clashTested (s.setPvw { s.pvw with peers := t.pvw.peers, tableFull := false }) u ∧ t.mct = u.mct ∧
        t.ssq = u.ssq ∧ t.msq = u.msq ∧ t.ors = u.ors ∧ (u.fct.pour ≠ .pouring → u.fct.pour ≠ .want → t = u)) ∧
      t.ssq.height = s.ssq.height ∧ t.cpl = s.cpl ∧ t.srs = s.srs ∧
      (t.pvw.sectorClash = s.pvw.sectorClash →
        t.mct = s.mct ∧ t.ssq = s.ssq ∧ t.msq = s.msq ∧
          (e.gate = .closed → t = s.setPvw { s.pvw with peers := t.pvw.peers, tableFull := false })))

/-! ### The concrete feed -/

/-- PVW's signals to FCT (R44, R102, R108, R110): a table change makes the yield test while POURING, and the node yields, with its
gate in whatever state and its closed limit off or on, when more gates use the pump than K and its rank is beyond the places; a
gate-count change makes the claim of R102 in WANT; in every other pour state the signals change nothing. And the events that give
them (R31 to R35, R39, R44): each update, creation and drop of an entry, each claim heard and each claim's lapse, with the
sector-clash condition tested first (the order is the model's choice, log entry 19). The gates that are closing, those JAMMED and
those open are counted as R44 counts them. -/
def Obligations.FeedSignals : Prop :=
  (∀ (own sector : Nat) (peers : List Peer),
    sectorClashes own sector peers = true ↔ own ≠ 0 ∧ ∃ p ∈ peers, p.sector = sector) ∧
  ∀ s : State,
    (s.fct.pour = .pouring → ∀ b,
      signalFeed false b s = s ∧
      (s.srs.active.gateLimit < 1 + openGates s + jammedGates s ∧
          s.srs.active.gateLimit - closingGates s < ownGateRank s →
        pourEndsTo .yielded true
          { s.fct with
            yieldMark := true
            pendingBackoff :=
              some (2000 + 250 * (ownGateRank s - max 0 (s.srs.active.gateLimit - closingGates s))).toNat }
          s (signalFeed true b s)) ∧
      (¬ (s.srs.active.gateLimit < 1 + openGates s + jammedGates s ∧
            s.srs.active.gateLimit - closingGates s < ownGateRank s) →
        signalFeed true b s = s)) ∧
    (s.fct.pour = .want → ∀ a,
      signalFeed a true s = (if notClosedGates s < s.srs.active.gateLimit then claimed s else s) ∧
        signalFeed a false s = s) ∧
    (s.fct.pour ≠ .pouring → s.fct.pour ≠ .want → ∀ a b, signalFeed a b s = s) ∧
    (∀ sender rest e, findPeer sender s.pvw.peers = some e →
      (∀ p, PostTaken sender (.level p) rest s → p.sector < ringOf s.srs.active →
        ∃ t u e', exec (.levelTaken sender p) s = .next t ∧ findPeer sender t.pvw.peers = some e' ∧
          clashTested ((removed rest s).setPvw { s.pvw with peers := t.pvw.peers }) u ∧
          t = signalFeed (decide (e.gate ≠ e'.gate ∨ e.needAtOpen ≠ e'.needAtOpen ∨ e.claim ≠ e'.claim))
            (decide ((e.gate = .closed) ≠ (e'.gate = .closed))) u) ∧
      (∀ p, PostTaken sender (.gate p) rest s →
        ∃ t u e', exec (.gateTaken sender p) s = .next t ∧ findPeer sender t.pvw.peers = some e' ∧
          clashTested ((removed rest s).setPvw { s.pvw with peers := t.pvw.peers }) u ∧
          t = signalFeed (decide (e.gate ≠ e'.gate ∨ e.needAtOpen ≠ e'.needAtOpen ∨ e.claim ≠ e'.claim))
            (decide ((e.gate = .closed) ≠ (e'.gate = .closed))) u) ∧
      (∀ p, PostTaken sender (.claim p) rest s →
        ∃ t, exec (.claimTaken sender p) s = .next t ∧
          t = signalFeed true false ((removed rest s).setPvw { s.pvw with peers := t.pvw.peers })) ∧
      (blocksRun s = true → e.claim ≠ none →
        ∃ t, exec (.claimLapse sender) s = .next t ∧
          t = signalFeed true false (s.setPvw { s.pvw with peers := t.pvw.peers })) ∧
      (blocksRun s = true →
        ∃ t u, exec (.peerDrop sender) s = .next t ∧
          clashTested (s.setPvw { s.pvw with peers := t.pvw.peers, tableFull := false }) u ∧
          t = signalFeed (decide (e.gate ≠ .closed)) (decide (e.gate ≠ .closed)) u)) ∧
    ∀ sender p rest, findPeer sender s.pvw.peers = none → PostTaken sender (.level p) rest s →
      p.sector < ringOf s.srs.active → s.pvw.peers.length < 47 →
        ∃ t u, exec (.levelTaken sender p) s = .next t ∧
          clashTested ((removed rest s).setPvw { s.pvw with peers := t.pvw.peers }) u ∧
          t = signalFeed (decide (p.gate ≠ .closed)) (decide (p.gate ≠ .closed)) u

/-- GATE_OPEN_LIMIT, GATE_CLOSED_LIMIT and GATE_TRAVEL_TIMEOUT (R94 to R97, R101, R106, R111): OPEN, CLOSED with what follows from
the pour state, and JAMMED, which ends a pour. Each input found on in another gate state changes nothing but the input itself. A
jam and a freed gate report in a GATE post and a wanted LEVEL post, and begin and end the pour block (R98 to R100). -/
def Obligations.GateEvents : Prop :=
  ∀ s : State, blocksRun s = true →
    (∀ on, exec (.gateOpenLimit on) s =
      .next
        (if on = true ∧ s.fct.gate = .opening then
          ((s.setPins { s.pins with gateOpenLimit := on }).setLif (gatePosts .opened s.fct.needAtOpen false s)).setFct
            { s.fct with gate := .opened, motor := .off }
        else s.setPins { s.pins with gateOpenLimit := on })) ∧
    (∀ on, ∃ t, exec (.gateClosedLimit on) s = .next t ∧
      (¬ (on = true ∧ s.fct.gate = .closing) → t = s.setPins { s.pins with gateClosedLimit := on }) ∧
      (on = true → s.fct.gate = .closing → gateCloses (s.setPins { s.pins with gateClosedLimit := on }) t)) ∧
    ∃ t u, exec .gateTravelTimeout s = .next t ∧
      u = (s.setLif (gatePosts .jammed s.fct.needAtOpen false s)).setFct
        { s.fct with gate := .jammed, motor := .off, blocked := true } ∧
      (s.fct.gate ≠ .opening → s.fct.gate ≠ .closing → t = s) ∧
      (s.fct.gate = .opening ∨ s.fct.gate = .closing →
        blockTested ((s.setLif (gatePosts .jammed s.fct.needAtOpen false s)).setFct { s.fct with gate := .jammed, motor := .off })
          t ∧
        (s.fct.pour = .pouring → s.fct.blocked = false →
          t = (u.setFct { u.fct with pour := .ending }).setLco
            (endLayer s.ssq.height s.srs.active.lMin .blocked s.lco)) ∧
        (s.fct.pour = .ending ∨ s.fct.pour = .dry ∨ s.fct.blocked = true → t = u))

/-- SETTLE_DECISION, BACKOFF_END and POUR_TIMER_SECOND (R101, R102, R104 to R109, R112). The fill gap is the latest FILL result
limited to 0 to 15,000 (R98). -/
def Obligations.FeedTimes : Prop :=
  (∀ (s : State) (v : Int), s.msq.table.fill.value = some v → fillGap s = max 0 (min 15000 v)) ∧
  ∀ s : State, blocksRun s = true →
    (∀ c, s.fct.ownClaim = some c → s.fct.pour = .claiming → c.sent = true →
      ∃ t need, exec .settleDecision s = .next t ∧ need = (if s.cpl.record.bind then 15000 else c.need) ∧
        (fillGap s < s.srs.active.gReq → t = s.setFct { s.fct with ownClaim := none, pour := .dry }) ∧
        (s.srs.active.gReq ≤ fillGap s → s.srs.active.gateLimit - notClosedGates s < ownClaimRank need s →
          t = s.setFct
            { s.fct with
              pour := .backoff, ownClaim := none, backoffMs := 0
              backoffLength :=
                (2000 +
                    250 * (ownClaimRank need s - max 0 (s.srs.active.gateLimit - notClosedGates s))).toNat }) ∧
        (s.srs.active.gReq ≤ fillGap s → ownClaimRank need s ≤ s.srs.active.gateLimit - notClosedGates s →
          s.pins.gateOpenLimit = false →
          t =
            ((s.setLif (gatePosts .opening (some need) false s)).setFct
              { s.fct with
                gate := .opening, motor := .openDrive, travelMs := 0, needAtOpen := some need, ownClaim := none,
                pour := .pouring, pourSeconds := 0 }).setLco (openLayer s.ssq.height s.lco)) ∧
        (s.srs.active.gReq ≤ fillGap s → ownClaimRank need s ≤ s.srs.active.gateLimit - notClosedGates s →
          s.pins.gateOpenLimit = true →
          t.fct =
              { s.fct with
                gate := .opened, motor := .off, travelMs := 0, needAtOpen := some need, ownClaim := none,
                pour := .pouring, pourSeconds := 0 } ∧
            t.lco = openLayer s.ssq.height s.lco ∧ SameElsewhere s t ∧ t.ssq = s.ssq ∧ t.msq = s.msq ∧ t.mct = s.mct ∧
            t.ors = s.ors ∧
            (ownStation s ≠ 0 →
              t.lif.gateSlot.map Slot.post = some { state := .opened, needAtOpen := need, yielded := false } ∧
                t.lif.levelSlot.isSome = true))) ∧
    (s.fct.pour = .backoff → ∃ t, exec .backoffEnd s = .next t ∧ wantedOrDry s t) ∧
    (s.fct.pour = .pouring → ∀ f, f = { s.fct with pourSeconds := min 65535 (s.fct.pourSeconds + 1) } →
      ∃ t, exec .pourTimerSecond s = .next t ∧
        (fillGap s ≤ s.srs.active.gFull → pourEndsTo .fillReached false f s t) ∧
        (s.srs.active.gFull < fillGap s → s.srs.active.pourLimit ≤ (f.pourSeconds : Int) →
          pourEndsTo .timeLimit false f s t) ∧
        (s.srs.active.gFull < fillGap s → (f.pourSeconds : Int) < s.srs.active.pourLimit → t = s.setFct f))

/-! ### The line -/

/-- POST_RECEIVED, FRAMING_ERROR and START_BIT (R40, R155, R161 to R164, R172): one framing error a post, after which the receiver
takes nothing until the line has been quiet for more than 3 bit times: from the error on where a byte shows it, and at once where
the error is a gap of more than 3, for which the command reports the quiet time (log entry 22); otherwise the counters, the last
sender, the rejoin count, the FIFO or the overrun, the identity clash of a clean post with the own number, and the end of MUTE at
the clean post that completes the rejoin count of a timer at 4,000 ms. The clean post with the own number puts IDENTITY_CLASH on,
with the SAFE entry where it is the first cause, and silences LIF (R137, R141, R173). -/
def Obligations.ReceiverEvents : Prop :=
  ∀ s : State, lineRuns s = true →
    (s.lif.rx = .errored →
      (∀ quiet,
        exec (.framingError quiet) s =
          .next
            (s.setLif
              { s.lif with
                rx := if 3 < quiet then .ready else .errored
                quietUs := quiet * bitTimeUs s.srs.active
                byteLeftUs := 0 })) ∧
        ∀ bytes, exec (.postReceived bytes) s = .next (s.setLif { s.lif with quietUs := 0, byteLeftUs := 0 })) ∧
    (∀ quiet,
      exec (.startBit quiet) s =
        .next
          (s.setLif
            { s.lif with
              rx := if 3 < max quiet (s.lif.quietUs / bitTimeUs s.srs.active) then .assembling else s.lif.rx
              quietUs := 0
              byteLeftUs := 10 * bitTimeUs s.srs.active })) ∧
    (s.lif.rx ≠ .errored →
      (∀ quiet,
        exec (.framingError quiet) s =
          .next
            (s.setLif
              { errorHeard s.lif with
                framingErrors := min 65535 (s.lif.framingErrors + 1)
                rx := if 3 < quiet then .ready else .errored
                quietUs := quiet * bitTimeUs s.srs.active
                byteLeftUs := 0 })) ∧
        ∀ bytes,
          (judgePost bytes = .framing →
            exec (.postReceived bytes) s =
              .next
                (s.setLif
                  { errorHeard s.lif with
                    framingErrors := min 65535 (s.lif.framingErrors + 1), rx := .errored, quietUs := 0, byteLeftUs := 0 })) ∧
          (judgePost bytes = .check →
            exec (.postReceived bytes) s =
              .next
                (s.setLif
                  { errorHeard s.lif with
                    checkErrors := min 65535 (s.lif.checkErrors + 1), rx := .ready, quietUs := 0, byteLeftUs := 0 })) ∧
          ∀ p, judgePost bytes = .clean p →
            ∃ t, exec (.postReceived bytes) s = .next t ∧
              t.lif.lastSender = p.sender ∧ t.lif.rx = .ready ∧ t.lif.quietUs = 0 ∧
              t.lif.rejoinCount = (if s.lif.muted then min 255 (s.lif.rejoinCount + 1) else s.lif.rejoinCount) ∧
              (takenHere s p → s.lif.fifo.length < 2 →
                t.lif.fifo = s.lif.fifo ++ [p] ∧ t.lif.overruns = s.lif.overruns) ∧
              (takenHere s p → 2 ≤ s.lif.fifo.length →
                t.lif.fifo = s.lif.fifo ∧ t.lif.overruns = min 65535 (s.lif.overruns + 1)) ∧
              (¬ takenHere s p → t.lif.fifo = s.lif.fifo ∧ t.lif.overruns = s.lif.overruns) ∧
              (p.sender = ownStation s → 1 ≤ ownStation s → ownStation s ≤ 62 → blocksRun s = true →
                t.mct.safe.identityClash = true ∧ t.pvw.identityClash = true ∧ t.lif.silent = true ∧
                  (¬ (s.lif.muted = true ∧ 4000 ≤ s.lif.rejoinMs ∧ 7 ≤ s.lif.rejoinCount) →
                    ∃ v, t = v.setLif { v.lif with silent := true } ∧
                      causeAdded none { s.mct.safe with identityClash := true }
                        ((s.setLif
                          { s.lif with
                            lastSender := p.sender, rx := .ready, quietUs := 0, byteLeftUs := 0,
                            rejoinCount := t.lif.rejoinCount }).setPvw { s.pvw with identityClash := true })
                        v)) ∧
              (s.lif.muted = true ∧ 4000 ≤ s.lif.rejoinMs ∧ 7 ≤ s.lif.rejoinCount →
                t.lif.muted = false ∧ t.lif.bucket = 40 ∧ (blocksRun s = true → t.mct.hold.mute = false) ∧
                  (p.sender ≠ ownStation s ∨ ownStation s = 0 →
                    t.mct.safe = s.mct.safe ∧ t.mct.base = s.mct.base ∧ t.ssq = s.ssq ∧ t.msq = s.msq ∧
                      SameElsewhere s t ∧
                      (blocksRun s = true →
                        modeFollowed s.mct
                          ((s.setLif
                            { s.lif with
                              lastSender := p.sender, rx := .ready, quietUs := 0, byteLeftUs := 0,
                              rejoinCount := t.lif.rejoinCount, fifo := t.lif.fifo, overruns := t.lif.overruns,
                              muted := false, bucket := 40 }).setMct
                            { s.mct with hold := { s.mct.hold with mute := false } })
                          t))) ∧
              (¬ (s.lif.muted = true ∧ 4000 ≤ s.lif.rejoinMs ∧ 7 ≤ s.lif.rejoinCount) →
                t.lif.muted = s.lif.muted ∧
                  (p.sender ≠ ownStation s ∨ ownStation s = 0 →
                    t = s.setLif t.lif ∧
                      t.lif =
                        { s.lif with
                          lastSender := p.sender, rx := .ready, quietUs := 0, byteLeftUs := 0,
                          rejoinCount := t.lif.rejoinCount, fifo := t.lif.fifo, overruns := t.lif.overruns })))

/-- The access gap (R165): 10 bit times and 64 for each class and up to 63 for the station; no two stations wait equally long
after the same sender, a lower class goes ahead of a higher one, and the last sender waits longest in its class. Spelled with the
cyclic order of the stations: 10 + 64 x class + (own + 63 - last) mod 64; and the bit time of each line rate (R155). -/
def Obligations.AccessGaps : Prop :=
  (∀ c : Settings, bitTimeUs c = if c.lineRate = 1 then 16 else if c.lineRate = 2 then 8 else 4) ∧
  ∀ own other last cls : Nat, own < 64 → other < 64 → last < 64 →
    10 + 64 * cls ≤ accessGap own last cls ∧ accessGap own last cls ≤ 10 + 64 * cls + 63 ∧
    (accessGap own last cls = accessGap other last cls → own = other) ∧
    (∀ higher, cls < higher → accessGap own last cls < accessGap other last higher) ∧
    accessGap last last cls = 10 + 64 * cls + 63 ∧
    accessGap own last cls = 10 + 64 * cls + (own + 63 - last) % 64

/-- ACCESS and LEVEL_TIMER (R43, R157, R165 to R167, R174, R175): the post of the lowest class goes first, of one class the
oldest; a LEVEL post latches the own record as it begins, field by field from the blocks, and carries it in its ten bytes; in
MUTE, in silence, before the join listen's end or with a post in the transmitter none begins. The quiet time that ACCESS reports
(log entry 2) does not count while this node sends, and past 3 bit times it ends a framing error's wait (R155, R161). The
channel-fault flag of a node whose one FAULTED channel, BEAM, turns ABSENT is the model's reading (log entry 34), and a number
beyond its field's width is sent by its low bytes (the model's choice, log entry 28). And how a slot is filled (R166, R171): a
post queued into a filled slot replaces its contents and keeps its age, one queued into an empty slot is the youngest, a REPLY
queued in MUTE is discarded; and the bytes of a REPLY payload: the sender answered, the code, the result or the number of the
reason, and the data (R159). -/
def Obligations.AccessBegins : Prop :=
  (∀ l : Lif,
    (∀ p, queueHaltPost p l =
      { l with
        haltSlot := some { post := p, stamp := (l.haltSlot.map Slot.stamp).getD l.nextStamp }
        nextStamp := l.nextStamp + 1 }) ∧
    (∀ p, queueClaimPost p l =
      { l with
        claimSlot := some { post := p, stamp := (l.claimSlot.map Slot.stamp).getD l.nextStamp }
        nextStamp := l.nextStamp + 1 }) ∧
    (∀ p, queueGatePost p l =
      { l with
        gateSlot := some { post := p, stamp := (l.gateSlot.map Slot.stamp).getD l.nextStamp }
        nextStamp := l.nextStamp + 1 }) ∧
    (∀ own, wantLevelPost own l =
      if own = 0 then l
      else
        { l with
          levelSlot := some { post := (), stamp := (l.levelSlot.map Slot.stamp).getD l.nextStamp }
          nextStamp := l.nextStamp + 1 }) ∧
    ∀ p, queueReplyPost p l =
      if l.muted = true then l
      else
        { l with
          replySlot := some { post := p, stamp := (l.replySlot.map Slot.stamp).getD l.nextStamp }
          nextStamp := l.nextStamp + 1 }) ∧
  (∀ (sender : Nat) (code : Byte) (data : List Byte),
    replyPayload sender code .done data = [byteOf sender, code, 0] ++ data ∧
      ∀ why, replyPayload sender code (.refused why) data = [byteOf sender, code, 1, byteOf (reasonNumber why)] ++ data) ∧
  (∀ s : State,
    modeData s =
      [byteOf (modeNumber (modeOf s.mct)), byteOf (holdSum s.mct.hold), byteOf (safeSum s.mct.safe),
        byteOf (gateNumber s.fct.gate)]) ∧
  ∀ s : State,
    (LineFree s → ∀ quiet,
      ∃ t, exec (.access quiet) s = .next t ∧
        (∀ x, s.lif.haltSlot = some x → accessTaken 0 (.halt x.post) x.stamp quiet { s.lif with haltSlot := none } s t) ∧
        (s.lif.haltSlot = none →
          (∀ x, s.lif.claimSlot = some x → (∀ y, s.lif.gateSlot = some y → x.stamp ≤ y.stamp) →
            accessTaken 1 (.claim x.post) x.stamp quiet { s.lif with claimSlot := none } s t) ∧
          (∀ y, s.lif.gateSlot = some y → (∀ x, s.lif.claimSlot = some x → y.stamp < x.stamp) →
            accessTaken 1 (.gate y.post) y.stamp quiet { s.lif with gateSlot := none } s t) ∧
          (s.lif.claimSlot = none → s.lif.gateSlot = none →
            (∀ x, s.lif.levelSlot = some x → (∀ y, s.lif.replySlot = some y → x.stamp ≤ y.stamp) →
              accessTaken 2 (.level (levelNow s)) x.stamp quiet { s.lif with levelSlot := none } s t) ∧
            (∀ y, s.lif.replySlot = some y → (∀ x, s.lif.levelSlot = some x → y.stamp < x.stamp) →
              accessTaken 2 (.reply y.post) y.stamp quiet { s.lif with replySlot := none } s t) ∧
            (s.lif.levelSlot = none → s.lif.replySlot = none →
              t = s.setLif (quieter quiet s))))) ∧
    payloadOf (.level (levelNow s)) = levelBytes (levelNow s) ∧
    (lineRuns s = true → ¬ LineFree s → ∀ quiet,
      exec (.access quiet) s = .next (if s.lif.transmitter.isSome then s else s.setLif (quieter quiet s))) ∧
    (lineRuns s = true → s.lif.levelMs ≠ none →
      ∃ t, exec .levelTimer s = .next t ∧ t = s.setLif t.lif ∧
        (ownStation s = 0 → t.lif = { s.lif with levelMs := some 0 }) ∧
        (ownStation s ≠ 0 → ∀ x, s.lif.levelSlot = some x →
          t.lif = { s.lif with levelMs := some 0, nextStamp := s.lif.nextStamp + 1 }) ∧
        (ownStation s ≠ 0 → s.lif.levelSlot = none →
          t.lif =
            { s.lif with
              levelMs := some 0
              nextStamp := s.lif.nextStamp + 1
              levelSlot := some { post := (), stamp := s.lif.nextStamp } }))

/-- GARBLE and MUTE_LEAVE (R103, R168, R169, R171, R172): the bucket, the post's return to its slot, MUTE at a bucket of 96 or
more with its slots emptied, its hold cause and the failed claim, and the return from MUTE once the timer has reached 4,000 ms and
the count 8. While a RESTART waits LIF alone does so, and a REPLY that MUTE discards ends the wait (R176, R188, R201). A garble in
silence that reaches 96 enters MUTE and empties the CLAIM and REPLY slots with it (R171, R173): the model's reading, log entry 43.
-/
def Obligations.GarbleAndMute : Prop :=
  ∀ s : State, lineRuns s = true →
    (∀ tx, s.lif.transmitter = some tx →
      ∃ t, exec .garble s = .next t ∧
        (s.lif.bucket < 88 → t = s.setLif (garbled tx s)) ∧
        (88 ≤ s.lif.bucket → s.ors.restartWaiting = true →
          ∀ u, u =
              s.setLif
                { garbled tx s with muted := true, claimSlot := none, replySlot := none, rejoinMs := 0, rejoinCount := 0 } →
            t = if (garbled tx s).replySlot = none then u else restartReported u) ∧
        (88 ≤ s.lif.bucket → s.ors.restartWaiting = false →
          t.lif.muted = true ∧ t.lif.transmitter = none ∧ t.lif.claimSlot = none ∧ t.lif.replySlot = none ∧
          t.lif.rejoinMs = 0 ∧ t.lif.rejoinCount = 0 ∧ t.lif.bucket = s.lif.bucket + 8 ∧
          t.lif.haltSlot = (garbled tx s).haltSlot ∧ t.lif.fifo = s.lif.fifo ∧
          t.mct.hold = { s.mct.hold with mute := true } ∧ t.mct.safe = s.mct.safe ∧ t.mct.base = s.mct.base ∧
          (modeOf s.mct = .climb → modeOf t.mct = .hold) ∧
          (s.fct.blocked = false → s.fct.pour = .want ∨ s.fct.pour = .claiming ∨ s.fct.pour = .backoff →
            t.fct.pour = .dry) ∧
          (s.fct.blocked = false → s.fct.pour = .pouring → s.pins.gateClosedLimit = false → t.fct.pour = .ending) ∧
          (s.fct.pour ≠ .pouring → t.lco = s.lco) ∧
          t.ssq = s.ssq ∧ t.msq = s.msq ∧ SameElsewhere s t ∧
          ∀ u v,
            u = s.setLif
              { garbled tx s with muted := true, claimSlot := none, replySlot := none, rejoinMs := 0, rejoinCount := 0 } →
            v =
              (if (garbled tx s).claimSlot ≠ none ∧ s.fct.pour = .claiming ∧
                  s.fct.ownClaim.map OwnClaim.sent = some false then
                u.setFct { s.fct with ownClaim := none, pour := .dry }
              else u) →
              modeFollowed s.mct (v.setMct { s.mct with hold := { s.mct.hold with mute := true } }) t)) ∧
    (s.lif.muted = true →
      ∃ t, exec .muteLeave s = .next t ∧
        (¬ (4000 ≤ s.lif.rejoinMs ∧ 8 ≤ s.lif.rejoinCount) → t = s) ∧
        (4000 ≤ s.lif.rejoinMs ∧ 8 ≤ s.lif.rejoinCount → s.ors.restartWaiting = true →
          t = s.setLif { s.lif with muted := false, bucket := 40 }) ∧
        (4000 ≤ s.lif.rejoinMs ∧ 8 ≤ s.lif.rejoinCount → s.ors.restartWaiting = false →
          t.lif.muted = false ∧ t.lif.bucket = 40 ∧ t.lif.fifo = s.lif.fifo ∧
          t.mct.hold = { s.mct.hold with mute := false } ∧ t.mct.safe = s.mct.safe ∧ t.mct.base = s.mct.base ∧
          (s.fct.blocked = true → s.fct.pour ≠ .dry → t.lco = s.lco ∧ t.fct.pour = s.fct.pour) ∧
          t.ssq = s.ssq ∧ t.msq = s.msq ∧ SameElsewhere s t ∧
          modeFollowed s.mct
            ((s.setLif { s.lif with muted := false, bucket := 40 }).setMct
              { s.mct with hold := { s.mct.hold with mute := false } })
            t))

/-- POST_SENT (R103, R143, R166, R170, R176, R188, R201): the bucket's floor of 0, the last sender, and the report to the post's owner.
While a RESTART waits LIF alone runs: a CLAIM or HALT post that goes out is reported to a block that takes nothing, and an older
REPLY that goes out while the RESTART's own still waits in its slot begins no restart. While a write of the stored block holds the
restart back after the report of that own reply, LIF runs on: the model's reading, log entry 44. -/
def Obligations.PostSent : Prop :=
  ∀ (tx : Transmission) (s : State), lineRuns s = true → s.lif.transmitter = some tx →
    ∃ t, exec .postSent s = .next t ∧
      (∀ p, tx.body = .level p → t = s.setLif (sentBy s)) ∧
      (∀ p, tx.body = .gate p → t = s.setLif (sentBy s)) ∧
      (∀ p c, tx.body = .claim p → blocksRun s = true → s.fct.ownClaim = some c →
        t =
          if s.fct.pour = .claiming ∧ c.sent = false ∧ c.number = p.number then
            (s.setLif (sentBy s)).setFct { s.fct with ownClaim := some { c with sent := true }, settleMs := 0 }
          else s.setLif (sentBy s)) ∧
      (∀ p, tx.body = .claim p → s.fct.ownClaim = none → t = s.setLif (sentBy s)) ∧
      (∀ p, tx.body = .claim p → s.ors.restartWaiting = true → t = s.setLif (sentBy s)) ∧
      (∀ p, tx.body = .halt p → blocksRun s = true →
        t =
          if s.lif.haltSlot = none then (s.setLif (sentBy s)).setMct { s.mct with queuedHalt := none }
          else s.setLif (sentBy s)) ∧
      (∀ p, tx.body = .halt p → s.ors.restartWaiting = true → t = s.setLif (sentBy s)) ∧
      (∀ p, tx.body = .reply p → s.ors.restartWaiting = false → t = s.setLif (sentBy s)) ∧
      (∀ p, tx.body = .reply p → s.ors.restartWaiting = true → s.lif.replySlot ≠ none → t = s.setLif (sentBy s)) ∧
      (∀ p, tx.body = .reply p → s.ors.restartWaiting = true → s.lif.replySlot = none →
        t = restartReported (s.setLif (sentBy s)))

/-! ### The start and the supply -/

/-- START (R20, R24, R45, R46, R89, R91, R101, R102, R114, R131, R143, R154, R174, R176, R194, R196, R200, R204), from stopped or
once a commanded restart has begun: what every start builds, the GATE post and the HALT post of an active E-stop that it queues,
the pour state it leaves once the channel states heard in steps 1 to 3 are taken, what a cold start builds, and what a warm start
or a commanded restart restores. Of the model's choices there stand in it: a START of a node that is up is none (log entry 3); the
values of a start that no rule lists (log entries 16, 31, 32 and 40: a stopped timer and the backoff length are 0); and, in what a
cold start leaves for every list heard, that a result converted in steps 1 to 3 is never delivered to LCO or SSQ (log entry 39).
What the load needs (R193, R194) is spelled: the check, every field in its range with field 41 alone absent, the seven cross-field
rules, and a station other than 0. The SAFE set a start leaves is empty but for RESTORED and for an IDENTITY_CLASH heard
meanwhile; LIF has its bucket, its counts, its marks and its slots as R174 says; the column is spelled record by record, after the
stroke credit where there is one (R9, R24, R91); a state with a write in progress, which no start finds (R195, R201), reads free values
(log entry 10); the sense condition follows the channels (R129). -/
def Obligations.StartBuilds : Prop :=
  (∀ (c : Settings) (agrees : Bool),
    loadsGood c agrees = true ↔
      agrees = true ∧ (∀ n v, fieldValue c n = some v → ∃ lo hi, fieldRange n = some (lo, hi) ∧ lo ≤ v ∧ v ≤ hi) ∧
        (∀ n, 1 ≤ n → n ≤ 41 → fieldValue c n = none → n = 41) ∧ c.sector < c.ringSectors ∧
        (c.probe1 < c.probe2 ∧ c.probe2 < c.probe3 ∧ c.probe3 < c.probe4 ∧ c.probe4 < c.formHeight) ∧
        c.smin ≤ c.creepStroke ∧ (∀ m, c.fullStroke = some m → c.smax ≤ m - 10) ∧
        (c.pRest < c.pLift ∧ c.pLift < c.pOver) ∧ c.mRel + 10000 ≤ c.mStick ∧ c.gFull < c.gReq - 500 ∧ c.station ≠ 0) ∧
  ∀ (x : StartInputs) (heard : List StartEvent) (s : State),
    (s.srs.life = .up → exec (.start x heard) s = .next s) ∧
    (s.srs.life ≠ .up →
      ∃ t block, exec (.start x heard) s = .next t ∧ block = s.srs.stored.getD (tornBlock 0) ∧
        t.srs =
          { s.srs with
            active := if loadsGood block.fields block.checkAgrees then block.fields else defaultSettings
            staged := block.fields
            loadResult := if loadsGood block.fields block.checkAgrees then .good else .default
            checkAgreed := block.checkAgrees
            defaultsTaken := false
            calibrationPending := decide (t.srs.active.calibrateNext = 1)
            areaValid := false
            life := .up
            step := .deciding
            joinMs := 0
            restartReady := false } ∧
        t.pvw.peers = [] ∧ t.pvw.tableFull = false ∧ t.pvw.sectorClash = false ∧
        t.ors = { cursor := none, amend := false, storeWaiting := none, restartWaiting := false } ∧
        t.ldr = { lit := true, slowOn := true, fastOn := true, slowMs := 0, fastMs := 0 } ∧
        t.fct.gate = (if x.gateClosedLimit then .closed else .closing) ∧
        t.fct.motor = (if x.gateClosedLimit then .off else .closeDrive) ∧ t.ssq.phase = .idle ∧ t.ssq.stroke = none ∧
        t.ssq.liftEnable = false ∧ t.ssq.dutyWritten = 0 ∧ t.ssq.releaseOn = false ∧ t.cpl.cycleMs = none ∧
        t.cpl.record =
          { minute := none, skipped := false, form := .noForm, basis := .noBasis, href := none, offset := none,
            spreadExceeded := none, error := none, slvl := none, cmax := none, cfill := none, crel := none, clead := none,
            scap := none, sfloor := none, allowance := none, bind := false } ∧ t.lif.access = false ∧ t.mct.estopActive = x.estopActive ∧
        t.mct.key = keyPosition x.key ∧ t.mct.hold.estop = x.estopActive ∧
        t.mct.hold.key = decide (keyPosition x.key ≠ .run) ∧ t.pins.gateClosedLimit = x.gateClosedLimit ∧
        t.mct.hold =
          { t.mct.hold with haltClimb := false, haltAll := false, mute := false, sense := senseNow t.msq.table } ∧
        t.msq.sense = senseNow t.msq.table ∧
        t.mct.safe =
          { spread := false, strokeRepeat := false, overpressure := false, valve := false, sectorClash := false,
            identityClash := t.lif.silent, restored := t.mct.safe.restored } ∧
        t.pvw.identityClash = t.lif.silent ∧ t.mct.lastHalt = none ∧ t.mct.settling = false ∧
        ((∀ bytes p, .post bytes ∈ heard → judgePost bytes = .clean p → p.sender ≠ ownStation t) →
          t.lif.silent = false) ∧
        (∀ bytes p later, heard = .post bytes :: later → judgePost bytes = .clean p → p.sender = ownStation t →
          1 ≤ ownStation t → ownStation t ≤ 62 → t.lif.silent = true) ∧
        t.lif.bucket = 0 ∧ t.lif.muted = false ∧ t.lif.transmitter = none ∧ t.lif.replySlot = none ∧ t.lif.levelMs = none ∧
        t.lif.garbles = 0 ∧ (t.lif.silent = false → t.lif.levelSlot = none) ∧
        (heard = [] →
          t.lif.framingErrors = 0 ∧ t.lif.checkErrors = 0 ∧ t.lif.overruns = 0 ∧ t.lif.quietUs = 0 ∧ t.lif.byteLeftUs = 0 ∧
            t.lif.silent = false) ∧
        (heard = [] → t.msq.chain = none ∧ t.msq.pendingTrigger = none ∧ t.msq.overrun = false ∧ t.msq.scan = .j1 ∧
          t.msq.passDone = false ∧
          (∀ c, entryOf t.msq.table c =
            { value := none, state := if c = .beam ∧ x.beamPresent = false then .absent else .notValid, fresh := false,
              outCount := 0, goodCount := 0 }) ∧ t.lif.lastSender = ownStation t ∧ t.lif.fifo = [] ∧
          t.lif.claimSlot = none ∧
          t.fct =
            { gate := t.fct.gate, motor := t.fct.motor, travelMs := 0, pour := .dry, claimNumber := 0, ownClaim := none,
              settleMs := 0, backoffMs := 0, backoffLength := 0, pourSeconds := 0, needAtOpen := none, yieldMark := false,
              pendingBackoff := none, blocked := true }) ∧
        t.lif.gateSlot.map Slot.post =
          (if ownStation t = 0 then none else some { state := t.fct.gate, needAtOpen := 0, yielded := false }) ∧
        t.mct.queuedHalt =
          (if x.estopActive = true ∧ ownStation t ≠ 0 then some { kind := .all, reason := .estop } else none) ∧
        t.lif.haltSlot.map Slot.post = t.mct.queuedHalt ∧ t.fct.travelMs = 0 ∧ t.fct.needAtOpen = none ∧
        t.fct.yieldMark = false ∧ t.fct.pendingBackoff = none ∧ (t.fct.blocked = true ↔ blockedNow t) ∧
        (blockedNow t ∨ fillGap t < t.srs.active.gReq ∨ x.gateClosedLimit = false ∨ ownStation t = 0 →
          t.fct.pour = .dry ∧ t.fct.ownClaim = none ∧ t.lif.claimSlot = none) ∧
        (¬ blockedNow t → t.srs.active.gReq ≤ fillGap t → x.gateClosedLimit = true → ownStation t ≠ 0 →
          t.fct.pour = .claiming ∧ t.fct.claimNumber = 1 ∧
            t.fct.ownClaim = some { need := fillGap t, number := 1, sent := false } ∧
            t.lif.claimSlot.map Slot.post = some { need := fillGap t, number := 1 }) ∧
        (s.srs.areaValid = false ∨ s.srs.area = none →
          t.lco =
              { column := [], known := false, runClock := 0, tickMs := 0, nextId := 0, releaseTotal := 0, depthRef := none,
                pourSeconds := 0 } ∧
            t.ssq =
              { phase := .idle, stroke := none, height := 0, heightValid := false, heightLimit := false,
                laserDisagree := false, plane := none, strokeCount := 0, history := [], chatter := 0, liftEnable := false,
                dutyWritten := 0, dutyInForce := 0, releaseOn := false, liftCoilOpen := false, releaseCoilOpen := false,
                overpressure := false } ∧ t.cpl.trim = 0 ∧ t.mct.base = .setup ∧ t.mct.window = [] ∧
          t.mct.safe.restored = false ∧ t.mct.restored = none ∧ t.mct.hold.operator = false) ∧
        ∀ a, s.srs.areaValid = true → s.srs.area = some a →
          t.cpl.trim = a.trim ∧ t.lco.known = true ∧ t.lco.runClock = a.runClock ∧ t.lco.releaseTotal ≤ a.column.length ∧
          t.mct.base = (if t.srs.loadResult = .good then a.base else .setup) ∧ t.mct.window = a.window ∧
          t.mct.safe.restored = a.wasSafe ∧ t.mct.restored = (if a.wasSafe then some a.safe else none) ∧
          t.mct.hold.operator = (decide (t.mct.base = .running) && !a.wasSafe) ∧ t.ssq.plane = a.plane ∧
          t.ssq.heightValid = a.heightValid ∧ t.ssq.heightLimit = decide (t.ssq.height = 1000000) ∧
          t.ssq.laserDisagree = false ∧ t.ssq.chatter = 0 ∧
          (∃ minutes l,
            minutes = (if a.atRestart then 0 else s.srs.outage) ∧
            released a.height
              { column :=
                  if minutes = 0 then a.column
                  else
                    a.column.map fun r =>
                      { r with
                        maturity :=
                          min 9999999
                            (r.maturity + minutes * (max 0 (t.srs.active.fallback - t.srs.active.datum)).toNat)
                        flags := { r.flags with outageCredited := true } }
                known := true
                runClock := a.runClock
                tickMs := 0
                nextId := (a.column.getLast?.map fun r => (r.id + 1) % 65536).getD 0
                releaseTotal := 0
                depthRef := none
                pourSeconds := 0 }
              l ∧
            (t.ssq.height = a.height → t.lco = l) ∧
            (t.ssq.height ≠ a.height → shifted (t.ssq.height - a.height) t.ssq.height l t.lco)) ∧
          (a.whileStroking = false →
            t.ssq.height = a.height ∧ t.ssq.strokeCount = a.strokeCount ∧ t.ssq.history = a.history ∧
            ∀ r ∈ a.column, a.height < r.top →
              ∃ r' ∈ t.lco.column, r'.id = r.id ∧ r'.bottom = r.bottom ∧ r'.top = r.top ∧
                (a.atRestart = true ∨ s.srs.outage = 0 → r'.maturity = r.maturity ∧ r'.flags = r.flags) ∧
                (a.atRestart = false → 0 < s.srs.outage →
                  r'.maturity =
                      min 9999999
                        (r.maturity + s.srs.outage * (max 0 (t.srs.active.fallback - t.srs.active.datum)).toNat) ∧
                    r'.flags.outageCredited = true)) ∧
          (a.whileStroking = true →
            t.ssq.height = max 0 (min 1000000 (a.height + max 0 (a.extension - t.srs.active.takeUp))) ∧
            t.ssq.strokeCount = (a.strokeCount + 1) % 256 ∧
            t.ssq.history =
              ({ number := (a.strokeCount + 1) % 256, allowance := none,
                 climbed := max 0 (a.extension - t.srs.active.takeUp), liftMs := 0, releaseMs := 0, cause := .powerCut,
                 creep := false, substituted := false, laser := none } :: a.history).take 8))

/-- START_CALIBRATION_STEP and JOIN_LISTEN_END (R47, R88, R174, R188, R196, R200): the decision of step 4, once MSQ has made its
first full pass; the join listen and its end. While a RESTART waits no pass is waited for and the join listen begins, so that its
reply can go (the model's reading of R188, log entry 8). -/
def Obligations.StartSteps : Prop :=
  ∀ s : State, lineRuns s = true →
    (s.srs.step = .deciding → blocksRun s = true → s.msq.passDone = false → exec .startCalibrationStep s = .next s) ∧
    (s.srs.step = .deciding → blocksRun s = false →
      exec .startCalibrationStep s = .next (s.setSrs { s.srs with step := .joinListen, joinMs := 0 })) ∧
    (s.srs.step = .deciding → blocksRun s = true → s.msq.passDone = true →
      ∃ t, exec .startCalibrationStep s = .next t ∧
        (s.srs.calibrationPending = true ∧ s.srs.loadResult = .good ∧ modeOf s.mct = .setup ∧ s.lco.known = true ∧
              (∀ r ∈ s.lco.column, s.srs.active.mRel ≤ (r.maturity : Int)) ∧ s.ssq.phase = .idle →
          strokeStarted .calibration none (s.setSrs { s.srs with step := .calibrating }) t) ∧
        (¬ (s.srs.calibrationPending = true ∧ s.srs.loadResult = .good ∧ modeOf s.mct = .setup ∧ s.lco.known = true ∧
              (∀ r ∈ s.lco.column, s.srs.active.mRel ≤ (r.maturity : Int)) ∧ s.ssq.phase = .idle) →
          t = s.setSrs { s.srs with step := .joinListen, joinMs := 0 })) ∧
    (s.srs.step = .joinListen →
      ∃ t, exec .joinListenEnd s = .next t ∧
        t =
          ((s.setSrs { s.srs with step := .running }).setCpl
            (if blocksRun s then { s.cpl with cycleMs := some 0 } else s.cpl)).setLif t.lif ∧
        t.lif =
          { s.lif with
            levelMs := some 0, access := true, levelSlot := t.lif.levelSlot, nextStamp := t.lif.nextStamp } ∧
        (ownStation s = 0 → t.lif.levelSlot = s.lif.levelSlot) ∧ (ownStation s ≠ 0 → t.lif.levelSlot.isSome = true))

/-- POWER_FAIL, OUTAGE_MINUTE and RETENTION_LOST (R21, R90, R113, R133, R154, R195, R198, R199, R201, R204): the save that the
hold-up outlasts, the one it does not, the loss during a waiting or running restart, the write of the stored block cut short, the
outage count, and the loss of the area. Of the model's choices there stand in it: what a stopped block holds and what the failed save
leaves (log entry 27), the jacks of the extension (log entries 33 and 37), the free fields of a torn write (log entry 10), and the lost
outage counter held as 0 (log entry 41). -/
def Obligations.SupplyEvents : Prop :=
  ∀ s : State,
    (∀ holdUp, ∃ t, exec (.powerFail holdUp) s = .next t ∧
      (s.srs.life = .stopped → t = s) ∧
      (s.srs.life ≠ .stopped →
        t.srs.life = .stopped ∧ t.srs.write = none ∧
        (s.srs.write = none → t.srs.stored = s.srs.stored ∧ t.freeCount = s.freeCount) ∧
        (s.srs.write ≠ none → ∃ b, t.srs.stored = some b ∧ b.checkAgrees = false) ∧
        t.lif = s.lif ∧ t.pvw = s.pvw ∧ t.cpl = s.cpl ∧ t.mct = s.mct ∧ t.ors = s.ors ∧ t.pins = s.pins ∧
        t.srs.active = s.srs.active ∧ t.srs.staged = s.srs.staged ∧ t.srs.loadResult = s.srs.loadResult) ∧
      (s.srs.life = .up → s.ors.restartWaiting = false →
        OutputsStopped s t ∧ t.lco = endLayer s.ssq.height s.srs.active.lMin .blocked s.lco ∧
        (holdUp = true →
          t.srs.areaValid = true ∧ t.srs.outage = 0 ∧
            ∃ a, t.srs.area = some a ∧ AreaSaved false s a) ∧
        (holdUp = false → t.srs.areaValid = false)) ∧
      (s.srs.life = .restarting ∨ (s.srs.life = .up ∧ s.ors.restartWaiting = true) →
        t.srs.areaValid = s.srs.areaValid ∧ t.srs.outage = s.srs.outage ∧ t.ssq = s.ssq ∧ t.lco = s.lco ∧
          t.srs.area = s.srs.area.map fun a => { a with atRestart := false })) ∧
    exec .outageMinute s =
      .next
        (if s.srs.life = .stopped ∧ s.srs.areaValid = true then
          s.setSrs { s.srs with outage := min 1440 (s.srs.outage + 1) }
        else s) ∧
    exec .retentionLost s =
      .next
        (if s.srs.life = .stopped then s.setSrs { s.srs with area := none, areaValid := false, outage := 0 } else s)

/-! ### The planner -/

/-- CYCLE_EXPIRY (R47, R48, R50, R52, R59, R60, R65, R80 to R83, R108): skipped while a stroke runs; otherwise the record, SPREAD
by the spread check, a stroke for an allowance above 0, and the need of a pour raised by bind. A null cycle makes the laser
correction where own height is valid and the laser adoption where it is not, under the four conditions, and without them leaves
height and mark as they are. SPREAD put on brings the SAFE entry: the cut, the settling mark, the HALT post where it is the first
cause, and the end of a pour; taken off, OPERATOR is added where the set empties with the base RUNNING (R141, R142). A stroke of
the allowance starts as strokeStarted says, with the START trigger taken, pending or lost (R122, R125, R126). -/
def Obligations.CycleExpiry : Prop :=
  ∀ s : State, blocksRun s = true → s.cpl.cycleMs ≠ none →
    (s.ssq.phase ≠ .idle →
      exec .cycleExpiry s =
        .next
          (s.setCpl
            { s.cpl with
              cycleMs := some 0, record := { s.cpl.record with skipped := true, minute := some s.lco.runClock } })) ∧
    (s.ssq.phase = .idle →
      ∃ t, exec .cycleExpiry s = .next t ∧ t.cpl = { s.cpl with cycleMs := some 0, record := currentRecord s } ∧
        ((currentRecord s).spreadExceeded = none → t.mct = s.mct) ∧
        ((currentRecord s).spreadExceeded = some true → t.mct.safe.spread = true ∧ modeOf t.mct = .safe) ∧
        ((currentRecord s).spreadExceeded = some false → t.mct.safe.spread = false) ∧
        ((currentRecord s).spreadExceeded = some false → s.mct.safe.spread = false → t.mct = s.mct) ∧
        (∃ u v,
          ((currentRecord s).spreadExceeded = none → u = s.setCpl { s.cpl with cycleMs := some 0 }) ∧
          ((currentRecord s).spreadExceeded = some true →
            causeAdded (some .spread) { s.mct.safe with spread := true } (s.setCpl { s.cpl with cycleMs := some 0 }) u) ∧
          ((currentRecord s).spreadExceeded = some false →
            safeLeft { s.mct.safe with spread := false } (s.setCpl { s.cpl with cycleMs := some 0 }) u) ∧
          needRaised (u.setCpl { s.cpl with cycleMs := some 0, record := currentRecord s }) v ∧
          ∀ S, (currentRecord s).allowance = some S →
            (0 < S → strokeStarted (if (currentRecord s).form = .creep then .creep else .level) (some S) v t) ∧
              (S ≤ 0 → t = if s.ssq.heightValid then laserCorrect v else laserAdopt v)) ∧
        (∀ S, (currentRecord s).allowance = some S → 0 < S →
          t.ssq =
              { s.ssq with
                phase := .pressurize, liftEnable := true, dutyWritten := 40
                stroke :=
                  some
                    { kind := if (currentRecord s).form = .creep then .creep else .level, allowance := some S,
                      startSample :=
                        if s.msq.chain ≠ none ∧ s.msq.pendingTrigger ≠ none then some (copyNow s.msq.table) else none,
                      topSample := none, endSample := none, liftEntry := none, liftDuration := none,
                      releaseEntry := none, releaseDuration := none, riseEnd := none, faults := [], laser := none,
                      topFired := false } } ∧
            t.msq = triggered .start s.msq) ∧
        ((currentRecord s).allowance = some 0 →
          t.msq = s.msq ∧
          (∃ u, t = (if s.ssq.heightValid then laserCorrect u else laserAdopt u) ∧ u.ssq = s.ssq ∧ u.msq = s.msq ∧
            u.pins = s.pins ∧ u.srs = s.srs ∧ (s.fct.pour ≠ .pouring → u.lco = s.lco) ∧
            ((currentRecord s).spreadExceeded = none ∨ ((currentRecord s).spreadExceeded = some false ∧ s.mct.safe.spread = false) →
              (currentRecord s).bind = false ∨ s.fct.pour ≠ .pouring →
                u = s.setCpl { s.cpl with cycleMs := some 0, record := currentRecord s })) ∧
          ((∀ plane b, ¬ BeamSeen plane b s) → t.ssq = s.ssq ∧ (s.fct.pour ≠ .pouring → t.lco = s.lco)) ∧
          ∀ plane b X, BeamSeen plane b s → X = laserAt plane b s - s.ssq.height →
            (s.ssq.heightValid = true → X.natAbs ≤ 1000 → 0 ≤ s.ssq.height → s.ssq.height ≤ 1000000 →
              t.ssq = { s.ssq with
                        height := s.ssq.height + Int.tdiv X 4, laserDisagree := false
                        heightLimit := if s.ssq.height + Int.tdiv X 4 < 1000000 then false else s.ssq.heightLimit } ∧
                (s.fct.pour ≠ .pouring →
                  t.lco =
                    if Int.tdiv X 4 = 0 then s.lco
                    else shiftColumn (Int.tdiv X 4) (s.ssq.height + Int.tdiv X 4) s.lco)) ∧
            (s.ssq.heightValid = true → 1000 < X.natAbs →
              t.ssq = { s.ssq with laserDisagree := true } ∧ (s.fct.pour ≠ .pouring → t.lco = s.lco)) ∧
            (s.ssq.heightValid = false →
              t.ssq = { s.ssq with
                        height := laserAt plane b s, heightValid := true
                        heightLimit := if laserAt plane b s < 1000000 then false else s.ssq.heightLimit } ∧
                (s.fct.pour ≠ .pouring →
                  t.lco = if X = 0 then s.lco else shiftColumn X (laserAt plane b s) s.lco))) ∧
        ((currentRecord s).bind = true → s.mct.safe.spread = false → s.fct.pour = .pouring →
          s.fct.needAtOpen.getD 0 < 15000 → t.fct = { s.fct with needAtOpen := some 15000 }) ∧
        t.pvw = s.pvw ∧ t.srs = s.srs ∧ t.ldr = s.ldr ∧ t.pins = s.pins ∧ t.lif.fifo = s.lif.fifo ∧
        t.nowMs = s.nowMs ∧ t.freeCount = s.freeCount ∧ t.pending = s.pending)

/-- The record of an expiry that is not skipped (R41, R42, R49 to R60): the form, the neighbours that the two searches find and
the heights of the ring statistics, the reference, which only the form NONE can be without, the offset, the spread check, the
level error and stroke, the caps, the floor, the allowance with its bounds, and bind. The basis and the reference the record keeps
are those computed, and the FILL cap is measured from the last record's top. -/
def Obligations.AllowanceRules : Prop :=
  ∀ s : State,
    (currentRecord s).minute = some s.lco.runClock ∧ (currentRecord s).skipped = false ∧
    (currentRecord s).basis = (currentReference s).basis ∧ (currentRecord s).href = (currentReference s).href ∧
    (capsOf s).sfloor = (if sticks s.srs.active.mStick s.lco then s.srs.active.creepStroke else 0) ∧
    (currentRecord s).form =
      (if modeOf s.mct = .setup ∨ s.ssq.heightValid = false then .noForm
      else if modeOf s.mct = .climb then .level
      else if modeOf s.mct = .safe then .reference
      else if s.mct.hold.haltAll = false ∧ s.mct.hold.estop = false ∧ s.mct.hold.key = false ∧ s.mct.hold.sense = false then
        .creep
      else .hold) ∧
    (∀ a b, nodeNeighbours s = .two a b → FoundLeft s a ∧ FoundRight s b ∧ a.station ≠ b.station) ∧
    (∀ a, nodeNeighbours s = .one a →
      (FoundLeft s a ∧ ∀ b, FoundRight s b → b.station = a.station) ∨ (FoundRight s a ∧ ∀ b, ¬ FoundLeft s b)) ∧
    (nodeNeighbours s = .none → ∀ a, ¬ FoundLeft s a ∧ ¬ FoundRight s a) ∧
    (∃ qs : List Peer, qs.Sublist s.pvw.peers ∧ (∀ p ∈ s.pvw.peers, p ∈ qs ↔ Qualifying s p) ∧
      nodeHeights s = qs.map Peer.height ++ (if s.ssq.heightValid then [s.ssq.height] else [])) ∧
    (∀ a b m, nodeNeighbours s = .two a b → m = (nodeHeights s).sum / (nodeHeights s).length →
      (currentRecord s).basis = .twoNeighbours ∧ (currentRecord s).href = some ((a.height + b.height + 2 * m) / 4)) ∧
    (∀ a m, nodeNeighbours s = .one a → m = (nodeHeights s).sum / (nodeHeights s).length →
      (currentRecord s).basis = .oneNeighbour ∧ (currentRecord s).href = some ((a.height + m) / 2)) ∧
    (nodeNeighbours s = .none →
      (1 < (nodeHeights s).length →
        (currentRecord s).basis = .ring ∧
          (currentRecord s).href = some ((nodeHeights s).sum / (nodeHeights s).length)) ∧
      ((nodeHeights s).length ≤ 1 → s.ssq.heightValid = true →
        (currentRecord s).basis = .self ∧ (currentRecord s).href = some s.ssq.height) ∧
      ((nodeHeights s).length ≤ 1 → s.ssq.heightValid = false →
        (currentRecord s).basis = .noBasis ∧ (currentRecord s).href = none)) ∧
    ((currentRecord s).form ≠ .noForm → s.ssq.heightValid = true ∧ (currentRecord s).href ≠ none) ∧
    (s.ssq.heightValid = false → (currentRecord s).offset = none) ∧
    (s.ssq.heightValid = true → (currentRecord s).offset = (currentRecord s).href.map fun h => h - s.ssq.height) ∧
    ((currentRecord s).form = .noForm → (currentRecord s).spreadExceeded = none) ∧
    (∀ h, (currentRecord s).form ≠ .noForm → (currentRecord s).href = some h →
      (currentRecord s).spreadExceeded = some (decide (s.srs.active.spreadAlarm < (h - s.ssq.height).natAbs))) ∧
    ((currentRecord s).form ≠ .level → (currentRecord s).error = none ∧ (currentRecord s).slvl = none) ∧
    ((currentRecord s).form = .noForm ∨ (currentRecord s).form = .reference ∨
        (currentRecord s).spreadExceeded = some true →
      (currentRecord s).cmax = none ∧ (currentRecord s).cfill = none ∧ (currentRecord s).crel = none ∧
        (currentRecord s).clead = none ∧ (currentRecord s).scap = none ∧ (currentRecord s).sfloor = none ∧
        (currentRecord s).error = none ∧ (currentRecord s).slvl = none ∧ (currentRecord s).bind = false) ∧
    (∀ h, (currentRecord s).href = some h → s.srs.active.spreadAlarm < (h - s.ssq.height).natAbs →
      (currentRecord s).allowance = some 0 ∧ (currentRecord s).bind = false ∧ (currentRecord s).scap = none) ∧
    (∀ h, (currentRecord s).href = some h → ((h - s.ssq.height).natAbs : Int) ≤ s.srs.active.spreadAlarm →
      (currentRecord s).form = .level →
        ∃ e slvl, (currentRecord s).error = some e ∧ (currentRecord s).slvl = some slvl ∧
          e =
            max (-s.srs.active.spreadAlarm)
              (min s.srs.active.spreadAlarm (max 0 (min 1000000 (h + 5 * s.cpl.trim)) - s.ssq.height)) ∧
          slvl = s.srs.active.nominalPace + Int.tdiv (s.srs.active.gain * e) 16 ∧
          (currentRecord s).allowance =
            some
              (if min (max slvl (capsOf s).sfloor) (capsOf s).scap < s.srs.active.smin then 0
              else min (max slvl (capsOf s).sfloor) (capsOf s).scap)) ∧
    (∀ h, (currentRecord s).href = some h → ((h - s.ssq.height).natAbs : Int) ≤ s.srs.active.spreadAlarm →
      (currentRecord s).form = .creep →
        (currentRecord s).error = none ∧ (currentRecord s).slvl = none ∧
        (currentRecord s).allowance =
          some
            (if sticks s.srs.active.mStick s.lco = true ∧
                s.srs.active.smin ≤ min s.srs.active.creepStroke (capsOf s).scap then
              min s.srs.active.creepStroke (capsOf s).scap
            else 0)) ∧
    ((currentRecord s).form ≠ .level → (currentRecord s).form ≠ .creep → (currentRecord s).allowance = some 0) ∧
    (∀ h, (currentRecord s).href = some h → ((h - s.ssq.height).natAbs : Int) ≤ s.srs.active.spreadAlarm →
      (currentRecord s).form = .level ∨ (currentRecord s).form = .creep ∨ (currentRecord s).form = .hold →
        (currentRecord s).cmax =
            some
              (match s.srs.active.fullStroke with
                | some m => min s.srs.active.smax (m - 10)
                | none => s.srs.active.smax) ∧
          (currentRecord s).cfill =
            some (max 0 ((s.lco.column.getLast?.map Layer.top).getD s.ssq.height - s.ssq.height - s.srs.active.fillMin)) ∧
          (currentRecord s).crel = crel s.srs.active.mRel s.ssq.height s.lco ∧
          (∀ low ∈ nodeHeights s, (∀ x ∈ nodeHeights s, low ≤ x) →
            (currentRecord s).clead = some (max 0 (low + s.srs.active.lead - s.ssq.height))) ∧
          (currentRecord s).sfloor =
            some (if sticks s.srs.active.mStick s.lco then s.srs.active.creepStroke else 0) ∧
          ∃ cap, (currentRecord s).scap = some cap ∧ cap = (capsOf s).scap ∧
            (∀ x, (currentRecord s).cmax = some x ∨ (currentRecord s).cfill = some x ∨ (currentRecord s).crel = some x ∨
              (currentRecord s).clead = some x → cap ≤ x) ∧
            ((currentRecord s).cmax = some cap ∨ (currentRecord s).cfill = some cap ∨ (currentRecord s).crel = some cap ∨
              (currentRecord s).clead = some cap) ∧
            ∀ fl, (currentRecord s).sfloor = some fl → ((currentRecord s).bind = true ↔ cap < fl)) ∧
    ∀ S, (currentRecord s).allowance = some S →
      S = 0 ∨ (s.srs.active.smin ≤ S ∧ ∀ cap, (currentRecord s).scap = some cap → S ≤ cap)

/-! ### The stroke -/

/-- The times of a stroke and its top limit (R66, R69 to R74, R122, R125, R126): RAMP_PERIOD in every phase, TOP_LIMIT_CAPTURE in
LIFT and as chatter in every other phase, IDLE included; PRESSURIZE_TIMEOUT, LIFT_TIMEOUT, TOP_TRIGGER, TOPDWELL_END and
RELEASE_TIMEOUT, each in its phase, with the trigger taken at once, pending or lost: a lost END trigger is answered at once by the
substituted copy, which completes the stroke. -/
def Obligations.StrokeTimes : Prop :=
  (∀ (s : State) (st : Stroke) (since : Nat), s.ssq.stroke = some st → st.liftEntry = some since →
    liftElapsed s = min (s.nowMs - since) (s.srs.active.liftTimeout * 1000).toNat) ∧
  (∀ s : State, blocksRun s = true →
    exec .rampPeriod s =
        .next
          (s.setSsq
            { s.ssq with
              dutyInForce := s.ssq.dutyWritten
              dutyWritten := if s.ssq.phase = .pressurize then min 100 (s.ssq.dutyWritten + 10) else s.ssq.dutyWritten }) ∧
      (s.ssq.phase ≠ .lift →
        exec .topLimitCapture s = .next (s.setSsq { s.ssq with chatter := min 255 (s.ssq.chatter + 1) }))) ∧
  ∀ (st : Stroke) (s : State), blocksRun s = true → s.ssq.stroke = some st →
    (s.ssq.phase = .pressurize →
      exec .pressurizeTimeout s =
        .next
          (s.setSsq
            { s.ssq with
              phase := .topdwell, liftEnable := false, dutyWritten := 0
              stroke := some { st with faults := st.faults ++ [.noPressure], liftDuration := some 0 } })) ∧
    (s.ssq.phase = .lift →
      exec .liftTimeout s =
        .next
          (s.setSsq
            { s.ssq with
              phase := .topdwell, liftEnable := false, dutyWritten := 0
              stroke :=
                some
                  { st with
                    faults := st.faults ++ [.stall], liftDuration := some (s.srs.active.liftTimeout * 1000).toNat } })) ∧
    (s.ssq.phase = .lift → ∀ since, st.liftEntry = some since →
      exec .topLimitCapture s =
        .next
          (s.setSsq
            { s.ssq with
              phase := .topdwell, liftEnable := false, dutyWritten := 0
              stroke :=
                some
                  { st with
                    riseEnd := some .full
                    liftDuration := some (min (s.nowMs - since) (s.srs.active.liftTimeout * 1000).toNat) } })) ∧
    (s.ssq.phase = .topdwell → st.topFired = false →
      (s.msq.chain = none →
        exec .topTrigger s =
          .next
            ((s.setSsq { s.ssq with stroke := some { st with topFired := true } }).setMsq
              { s.msq with chain := some { tag := .top, done := [] } })) ∧
      (s.msq.chain ≠ none → s.msq.pendingTrigger = none →
        exec .topTrigger s =
          .next
            ((s.setSsq { s.ssq with stroke := some { st with topFired := true } }).setMsq
              { s.msq with pendingTrigger := some .top })) ∧
      (s.msq.chain ≠ none → s.msq.pendingTrigger ≠ none →
        exec .topTrigger s =
          .next
            ((s.setSsq
              { s.ssq with
                stroke := some { st with topFired := true, topSample := some (copyNow s.msq.table) } }).setMsq
              { s.msq with overrun := true }))) ∧
    (s.ssq.phase = .topdwell →
      exec .topdwellEnd s =
        .next
          (s.setSsq
            { s.ssq with
              phase := .release, releaseOn := true, stroke := some { st with releaseEntry := some s.nowMs } })) ∧
    (s.ssq.phase = .release →
      (s.msq.chain = none →
        exec .releaseTimeout s =
          .next
            ((s.setSsq
              { s.ssq with
                phase := .settle, releaseOn := false
                stroke := some { st with faults := st.faults ++ [.noReturn], releaseDuration := some 5000 } }).setMsq
              { s.msq with chain := some { tag := .finish, done := [] } })) ∧
      (s.msq.chain ≠ none → s.msq.pendingTrigger = none →
        exec .releaseTimeout s =
          .next
            ((s.setSsq
              { s.ssq with
                phase := .settle, releaseOn := false
                stroke := some { st with faults := st.faults ++ [.noReturn], releaseDuration := some 5000 } }).setMsq
              { s.msq with pendingTrigger := some .finish })) ∧
      (s.msq.chain ≠ none → s.msq.pendingTrigger ≠ none → ∀ done,
        done =
            { st with
              faults := st.faults ++ [.noReturn], releaseDuration := some 5000
              endSample := some (copyNow s.msq.table) } →
          exec .releaseTimeout s =
            .next
              (completeSettle done
                ((s.setSsq { s.ssq with phase := .settle, releaseOn := false, stroke := some done }).setMsq
                  { s.msq with overrun := true }))))

/-- COIL_CHECK (R68, R78, R137, R141): a good coil is recorded and nothing else; an open one puts VALVE on at once, with the SAFE
entry where it is the first cause. -/
def Obligations.CoilCheck : Prop :=
  ∀ (coil : Coil) (s : State), blocksRun s = true →
    exec (.coilCheck coil false) s =
        .next
          (s.setSsq
            (match coil with
              | .lift => { s.ssq with liftCoilOpen := false }
              | .release => { s.ssq with releaseCoilOpen := false })) ∧
    ∃ t, exec (.coilCheck coil true) s = .next t ∧ t.mct.safe = { s.mct.safe with valve := true } ∧
      causeAdded (some .valve) { s.mct.safe with valve := true }
        (s.setSsq
          (match coil with
            | .lift => { s.ssq with liftCoilOpen := true }
            | .release => { s.ssq with releaseCoilOpen := true }))
        t ∧
      (s.mct.safe = noSafe →
        SafeEntered .valve s t ∧
          t.ssq =
            (match coil with
              | .lift => { cutLeaves s with liftCoilOpen := true }
              | .release => { cutLeaves s with releaseCoilOpen := true })) ∧
      (s.mct.safe ≠ noSafe →
        t =
          (s.setSsq
            (match coil with
              | .lift => { s.ssq with liftCoilOpen := true }
              | .release => { s.ssq with releaseCoilOpen := true })).setMct
            { s.mct with safe := { s.mct.safe with valve := true } })

/-- CONVERSION_COMPLETE (R6, R22, R69, R70, R73, R74, R78, R79, R100, R101, R109, R116, R119 to R126, R129, R130, R135, R138, R140,
R141, R143): the entry of the
channel in flight alone changes, the scan or the chain moves on, a chain's fifth conversion delivers its sample, and the results
and the changes of state reach their readers: the tests of PRESSURIZE, LIFT and RELEASE, the completion of SETTLE at the END
sample, LCO and then the feed at FILL, and the sense condition. A conversion that announces nothing changes MSQ alone; a normal
conversion of BEAM completes a pass of the scan. The scan order is spelled (R116), and so are the channel a chain converts, what a
chain in flight at its completion does with a pending trigger, whose chain starts next (R122 to R125), and the FILL fault's pour
block with its end (R99, R100). All that one conversion brings is said in its order as well: MSQ's own state, then the good result at
its readers, the change of state at its readers, and the end of the chain. There a good PRES result above P_over puts OVERPRESSURE on
by causeAdded, with the SAFE entry where it is the first cause (the cut of PRESSURIZE and LIFT, the settling mark, the HALT post, the
pour block and the mode: pressureTaken); and a change of the sense condition brings the change of mode by modeFollowed (a HOLD entered
from CLIMB, CLIMB taken up again where SENSE was the last hold: senseTested). The phase's own test before the overpressure test is the
model's choice, log entry 19; so is the drop of a sample set delivered with no stroke in flight, log entry 35. -/
def Obligations.ConversionComplete : Prop :=
  ([Channel.j1, .j2, .j3, .j4, .pres, .fill, .t1, .t2, .t3, .t4, .beam].map nextChannel =
    [.j2, .j3, .j4, .pres, .fill, .t1, .t2, .t3, .t4, .beam, .j1]) ∧
  (∀ (m : Msq) (ch : Chain), m.chain = some ch → ch.done.length ≤ 4 →
    [Channel.j1, .j2, .j3, .j4, .pres][ch.done.length]? = some (channelInFlight m)) ∧
  (∀ (c : Channel) (raw : Nat) (e : ChanEntry),
    announcesGood c raw e = true ↔ rawInRange c raw = true ∧ e.state ≠ .absent ∧ (entryAfter c raw e).state = .good) ∧
  (∀ a b c d e : SampleElem,
    sampleOf [a, b, c, d, e] = { j1 := a, j2 := b, j3 := c, j4 := d, pres := e, substituted := false }) ∧
  (∀ (c : Channel) (raw : Nat) (e : ChanEntry),
    sampleElem c raw e = { value := (entryAfter c raw e).value, good := announcesGood c raw e }) ∧
  ∀ (raw : BitVec 12) (s : State), blocksRun s = true →
    ∃ t, exec (.conversionComplete raw) s = .next t ∧
      (∀ c, entryOf t.msq.table c =
        if c = channelInFlight s.msq then entryAfter c raw.toNat (entryOf s.msq.table c) else entryOf s.msq.table c) ∧
      (s.msq.chain = none →
        channelInFlight s.msq = s.msq.scan ∧ t.msq.scan = nextChannel s.msq.scan ∧
        t.msq.passDone = (s.msq.passDone || decide (s.msq.scan = .beam)) ∧
        (s.msq.scan ≠ .fill → isJackOrPres s.msq.scan = false →
          t = s.setMsq
            { s.msq with table := t.msq.table, scan := nextChannel s.msq.scan, passDone := t.msq.passDone })) ∧
      (∀ ch, s.msq.chain = some ch →
        t.msq.scan = s.msq.scan ∧ t.msq.passDone = s.msq.passDone ∧
        (ch.done.length < 4 →
          t.msq.chain =
            some
              { ch with
                done :=
                  ch.done ++
                    [{ value := (entryOf t.msq.table (channelInFlight s.msq)).value
                       good :=
                         announcesGood (channelInFlight s.msq) raw.toNat
                           (entryOf s.msq.table (channelInFlight s.msq)) }] }) ∧
        (ch.done.length = 4 → ch.tag ≠ .finish → s.ssq.phase ≠ .release ∨ s.msq.pendingTrigger = none →
          s.ssq.stroke ≠ none → ∀ p, p = sampleOf (ch.done ++ [sampleElem .pres raw.toNat s.msq.table.pres]) →
            (ch.tag = .start → t.ssq.stroke.map Stroke.startSample = some (some p)) ∧
              (ch.tag = .top → t.ssq.stroke.map Stroke.topSample = some (some p))) ∧
        (ch.done.length = 4 → s.ssq.phase ≠ .release ∨ ¬ homeNow s.srs.active.pRest t.msq.table →
          (s.ssq.phase = .pressurize → s.msq.pendingTrigger = some .start →
            announcesGood .pres raw.toNat s.msq.table.pres = true →
              ((raw.toNat * 4000 / 4096 : Nat) : Int) ≤ s.srs.active.pOver) →
          t.msq.chain = s.msq.pendingTrigger.map (fun tag => { tag := tag, done := [] }) ∧ t.msq.pendingTrigger = none) ∧
        (ch.done.length = 4 → ch.tag ≠ .finish → s.msq.pendingTrigger = none → s.ssq.phase = .release →
          Announced .pres raw.toNat s.msq.table.pres → homeNow s.srs.active.pRest t.msq.table →
            t.ssq.phase = .settle ∧ t.msq.chain = some { tag := .finish, done := [] } ∧ t.msq.pendingTrigger = none) ∧
        (∀ st, ch.done.length = 4 → ch.tag = .finish → s.ssq.phase = .settle → s.ssq.stroke = some st →
          t.ssq.phase = .idle ∧ t.ssq.stroke = none ∧ t.ssq.strokeCount = (s.ssq.strokeCount + 1) % 256 ∧
          t.msq.chain = s.msq.pendingTrigger.map (fun tag => { tag := tag, done := [] }) ∧ t.msq.pendingTrigger = none ∧
          ∀ full done u, full = { ch with done := ch.done ++ [sampleElem .pres raw.toNat s.msq.table.pres] } →
            done = { st with endSample := some (sampleOf full.done) } →
            u = (s.setMsq { s.msq with table := t.msq.table, chain := some full }).setSsq
                  { s.ssq with
                    stroke := some done
                    overpressure :=
                      if announcesGood .pres raw.toNat s.msq.table.pres then false else s.ssq.overpressure } →
            (announcesGood .pres raw.toNat s.msq.table.pres = true →
              ((raw.toNat * 4000 / 4096 : Nat) : Int) ≤ s.srs.active.pOver) →
            t.msq.table.pres.state = s.msq.table.pres.state →
              t = (completeSettle done u).setMsq t.msq)) ∧
      (∀ v, channelInFlight s.msq = .pres → announcesGood .pres raw.toNat s.msq.table.pres = true →
        v = raw.toNat * 4000 / 4096 →
          t.ssq.overpressure = decide (s.srs.active.pOver < (v : Int)) ∧
          (s.srs.active.pOver < (v : Int) → t.mct.safe.overpressure = true ∧ modeOf t.mct = .safe) ∧
          (s.ssq.phase = .pressurize → (v : Int) ≤ s.srs.active.pOver →
            ((v : Int) < s.srs.active.pLift →
              t.ssq = chainStored raw.toNat s.msq { s.ssq with overpressure := false }) ∧
            (s.srs.active.pLift ≤ (v : Int) → ∀ st begun q, s.ssq.stroke = some st →
              begun = { st with liftEntry := some s.nowMs } →
              q = { s.ssq with
                    phase := .lift
                    dutyWritten := if s.ssq.dutyInForce = 100 then s.ssq.dutyWritten else 100
                    stroke := some begun
                    overpressure := false } →
                (st.startSample = none → t.ssq = chainStored raw.toNat s.msq q) ∧
                  ∀ a, st.startSample = some a →
                    ∃ r, liftTested (travelsNow a t.msq.table) begun (s.setSsq q) r ∧
                      t.ssq = chainStored raw.toNat s.msq r))) ∧
      (∀ c e, c = channelInFlight s.msq → e = entryOf s.msq.table c →
        (¬ Announced c raw.toNat e → (∀ ch, s.msq.chain = some ch → ch.done.length < 4) →
          t = s.setMsq
            { s.msq with
              table := t.msq.table, scan := t.msq.scan, passDone := t.msq.passDone, chain := t.msq.chain }) ∧
        (isJack c = true → s.ssq.phase ≠ .lift → s.ssq.phase ≠ .release → t.ssq = s.ssq) ∧
        ∀ st, s.ssq.stroke = some st → Announced c raw.toNat e →
          (isJack c = true → s.ssq.phase = .lift →
            (st.startSample = none → t.ssq = s.ssq) ∧
              ∀ a, st.startSample = some a → liftTested (travelsNow a t.msq.table) st s t.ssq) ∧
          (isJackOrPres c = true → s.ssq.phase = .release → (∀ ch, s.msq.chain = some ch → ch.done.length < 4) →
            (¬ homeNow s.srs.active.pRest t.msq.table →
              t.ssq.phase = .release ∧ t.ssq.releaseOn = s.ssq.releaseOn ∧ t.ssq.stroke = s.ssq.stroke) ∧
            (homeNow s.srs.active.pRest t.msq.table → returned st s t))) ∧
      (∀ gap e, channelInFlight s.msq = .fill → gap = ((raw.toNat * 15000 / 4096 : Nat) : Int) →
        e = s.msq.table.fill →
        (announcesGood .fill raw.toNat e = true →
          t.lco.known = true ∧
          ∃ l u v, fillTaken gap s l ∧
            u = (s.setMsq { s.msq with table := t.msq.table, scan := .t1 }).setLco l ∧ fillTested gap u v ∧
            (e.state = .good → t = v) ∧
            (e.state ≠ .good → blockTested v t)) ∧
        (e.state ≠ .faulted → (entryAfter .fill raw.toNat e).state = .faulted → s.fct.blocked = false →
          ∀ u, u = s.setMsq { s.msq with table := t.msq.table, scan := .t1 } →
            blockTested u t ∧
            (s.fct.pour = .pouring → pourEndsTo .blocked false { s.fct with blocked := true } u t) ∧
            (s.fct.pour = .dry ∨ s.fct.pour = .ending → t = u.setFct { s.fct with blocked := true }) ∧
            (s.fct.pour = .want ∨ s.fct.pour = .backoff → t = u.setFct { s.fct with blocked := true, pour := .dry }) ∧
            (s.fct.pour = .claiming → t.fct = { s.fct with blocked := true, ownClaim := none, pour := .dry }))) ∧
      (isJackOrPres (channelInFlight s.msq) = true →
        (entryOf t.msq.table (channelInFlight s.msq)).state ≠ (entryOf s.msq.table (channelInFlight s.msq)).state →
          t.msq.sense = senseNow t.msq.table ∧ (t.msq.sense ≠ s.msq.sense → t.mct.hold.sense = t.msq.sense)) ∧
      (∀ c e, c = channelInFlight s.msq → e = entryOf s.msq.table c →
        ∃ x y z,
          x = s.setMsq
            { s.msq with
              table := t.msq.table, scan := t.msq.scan, passDone := t.msq.passDone
              chain := s.msq.chain.map fun ch => { ch with done := ch.done ++ [sampleElem c raw.toNat e] } } ∧
          (announcesGood c raw.toNat e = true → resultTaken c (scaledValue c raw.toNat) x y) ∧
          (announcesGood c raw.toNat e = false → y = x) ∧
          ((entryAfter c raw.toNat e).state ≠ e.state → changeTaken c y z) ∧
          ((entryAfter c raw.toNat e).state = e.state → z = y) ∧ chainEnded z t) ∧
      t.pvw = s.pvw ∧ t.cpl = s.cpl ∧ t.ldr = s.ldr ∧ t.pins = s.pins ∧ t.lif.fifo = s.lif.fifo ∧
      t.nowMs = s.nowMs ∧ t.freeCount = s.freeCount ∧ t.pending = s.pending

/-- A channel's state, counts and value after a conversion (R119). -/
def Obligations.ChannelStates : Prop :=
  ∀ (c : Channel) (raw : Nat) (e : ChanEntry), e.state ≠ .absent →
    (rawInRange c raw = true → e.state = .notValid ∨ e.state = .good →
      entryAfter c raw e =
        { value := some (scaledValue c raw), state := .good, fresh := true, outCount := 0, goodCount := 0 }) ∧
    (rawInRange c raw = false → e.state = .notValid ∨ e.state = .good → e.outCount ≤ 1 →
      entryAfter c raw e = { e with outCount := e.outCount + 1, fresh := false }) ∧
    (rawInRange c raw = false → e.state = .notValid ∨ e.state = .good → e.outCount = 2 →
      entryAfter c raw e = { e with state := .faulted, outCount := 3, goodCount := 0, fresh := false }) ∧
    (rawInRange c raw = true → e.state = .faulted → e.goodCount ≤ 1 →
      entryAfter c raw e = { e with goodCount := e.goodCount + 1, fresh := false }) ∧
    (rawInRange c raw = true → e.state = .faulted → e.goodCount = 2 →
      entryAfter c raw e =
        { value := some (scaledValue c raw), state := .good, fresh := true, outCount := 0, goodCount := 0 }) ∧
    (rawInRange c raw = false → e.state = .faulted →
      entryAfter c raw e = { e with goodCount := 0, fresh := false })

/-- A channel's value from its raw reading, with the ranges of the table (R117), and the readings in range (R118). -/
def Obligations.ScaledValues : Prop :=
  ∀ raw : Nat, raw ≤ 4095 →
    (∀ c, isJack c = true →
      (rawInRange c raw = true ↔ 16 ≤ raw ∧ raw ≤ 4013) ∧ scaledValue c raw = (raw * 600 / 4096 : Nat) ∧
        (rawInRange c raw = true → 2 ≤ scaledValue c raw ∧ scaledValue c raw ≤ 587)) ∧
    ((rawInRange .pres raw = true ↔ 16 ≤ raw ∧ raw ≤ 4013) ∧ scaledValue .pres raw = (raw * 4000 / 4096 : Nat) ∧
      (rawInRange .pres raw = true → 15 ≤ scaledValue .pres raw ∧ scaledValue .pres raw ≤ 3918)) ∧
    ((rawInRange .fill raw = true ↔ 82 ≤ raw ∧ raw ≤ 4013) ∧ scaledValue .fill raw = (raw * 15000 / 4096 : Nat) ∧
      (rawInRange .fill raw = true → 300 ≤ scaledValue .fill raw ∧ scaledValue .fill raw ≤ 14696)) ∧
    (∀ c, c = .t1 ∨ c = .t2 ∨ c = .t3 ∨ c = .t4 →
      (rawInRange c raw = true ↔ 82 ≤ raw ∧ raw ≤ 4013) ∧ scaledValue c raw = -400 + (raw * 1200 / 4096 : Nat) ∧
        (rawInRange c raw = true → -376 ≤ scaledValue c raw ∧ scaledValue c raw ≤ 775)) ∧
    ((rawInRange .beam raw = true ↔ 82 ≤ raw ∧ raw ≤ 4013) ∧ scaledValue .beam raw = -500 + (raw * 1000 / 4096 : Nat) ∧
      (rawInRange .beam raw = true → -480 ≤ scaledValue .beam raw ∧ scaledValue .beam raw ≤ 479)) ∧
    ∀ c e, rawInRange c raw = false → (entryAfter c raw e).value = e.value

/-- The completion of SETTLE (R74 to R77, R80 to R82, R86, R88, R137, R141, R143, R197), with the laser correction of the height just climbed to,
its record in the history and the write request of a successful calibration; with own height invalid none is attempted and the
record has none (the model's reading, log entry 15). A report that brings the window's sum to 2 or more puts STROKE_REPEAT on by
causeAdded, with the SAFE entry where it is the first cause; where the sum stays below 2, and for a calibration stroke, MCT's base,
hold set and SAFE set, the feed, MSQ and ORS stay as they were. And the laser correction and adoption by themselves (R81 to R83). -/
def Obligations.SettleAndLaser : Prop :=
  (∀ (st : Stroke) (s : State), st.laser = none →
    ∃ t d h c, completeSettle st s = t ∧ d = climbedDistance s.srs.active.takeUp st ∧ 0 ≤ d ∧
      (st.startSample = none → d = 0) ∧
      (∀ a b e travels, st.startSample = some a → st.topSample = some b → st.endSample = some e →
        travels = travelsTaken a b e →
          (travels = [] → d = 0) ∧
            (travels ≠ [] → d = max 0 (max 0 travels.sum / travels.length - s.srs.active.takeUp))) ∧
      h = min 1000000 (s.ssq.height + d) ∧
      (s.ssq.heightValid = false ∨ (∀ plane b, ¬ BeamSeen plane b s) →
        c = none ∧ t.ssq.laserDisagree = s.ssq.laserDisagree) ∧
      (∀ plane b, s.ssq.heightValid = true → BeamSeen plane b s →
        ((laserAt plane b s - h).natAbs ≤ 1000 →
          c = some (Int.tdiv (laserAt plane b s - h) 4) ∧ t.ssq.laserDisagree = false) ∧
        (1000 < (laserAt plane b s - h).natAbs → c = none ∧ t.ssq.laserDisagree = true)) ∧
      (c = none → t.ssq.height = h ∧ (1000000 < s.ssq.height + d → t.ssq.heightLimit = true)) ∧
      (∀ x, c = some x → 0 ≤ s.ssq.height →
        t.ssq.height = h + x ∧ (h + x < 1000000 → t.ssq.heightLimit = false)) ∧
      t.ssq.heightValid = s.ssq.heightValid ∧ t.ssq.strokeCount = (s.ssq.strokeCount + 1) % 256 ∧
      t.ssq.phase = .idle ∧ t.ssq.stroke = none ∧ t.mct.settling = false ∧
      t.ssq.history =
        ({ number := (s.ssq.strokeCount + 1) % 256, allowance := st.allowance, climbed := d,
           liftMs := st.liftDuration.getD 0, releaseMs := st.releaseDuration.getD 0, cause := endCauseOf st,
           creep := decide (st.kind = .creep), substituted := anySubstituted st, laser := c } ::
          s.ssq.history).take 8 ∧
      (st.startSample = none ∨ st.topSample = none → calibratedStroke st = none) ∧
      (∀ a b m, st.startSample = some a → st.topSample = some b → m = (travelsIn a b).sum / (travelsIn a b).length →
        calibratedStroke st =
          if st.riseEnd = some .full ∧ st.faults = [] ∧ 3 ≤ (travelsIn a b).length ∧ 100 ≤ m ∧ m ≤ 600 then some m
          else none) ∧
      (st.kind = .calibration → calibratedStroke st ≠ none → endCauseOf st = .calibration) ∧
      (st.kind ≠ .calibration ∨ calibratedStroke st = none →
        (∀ f rest, st.faults = f :: rest →
          endCauseOf st =
            match f with
            | .noPressure => .noPressure
            | .stall => .stall
            | .skew => .skew
            | .transducer => .transducer
            | .noReturn => .noReturn) ∧
        ∀ e, st.faults = [] → st.riseEnd = some e →
          endCauseOf st =
            match e with
            | .target => .target
            | .full => .full
            | .cut => .cut) ∧
      (anySubstituted st = true ↔
        ∃ p, p.substituted = true ∧ (st.startSample = some p ∨ st.topSample = some p ∨ st.endSample = some p)) ∧
      (ownStation s ≠ 0 → t.lif.levelSlot.isSome = true) ∧
      (st.kind ≠ .calibration →
        t.mct.window = (st.faults.length :: s.mct.window).take 10 ∧ t.srs = s.srs ∧
          (2 ≤ t.mct.window.sum → t.mct.safe.strokeRepeat = true)) ∧
      (st.kind = .calibration ∨ t.mct.window.sum < 2 →
        t.mct = { s.mct with window := t.mct.window, settling := false } ∧ t.fct = s.fct ∧ t.msq = s.msq ∧ t.ors = s.ors) ∧
      (∃ x y,
        x =
          (((s.setSsq
            { s.ssq with
              height := t.ssq.height, heightLimit := t.ssq.heightLimit, laserDisagree := t.ssq.laserDisagree
              strokeCount := t.ssq.strokeCount }).setLco x.lco).setSrs t.srs).setMct { s.mct with window := t.mct.window } ∧
        (c = none → x.lco = releasePass h s.lco) ∧
        (∀ k, c = some k → 0 ≤ s.ssq.height →
          x.lco = if k = 0 then releasePass h s.lco else shiftColumn k (h + k) (releasePass h s.lco)) ∧
        (st.kind = .calibration ∨ t.mct.window.sum < 2 → y = x) ∧
        (st.kind ≠ .calibration → 2 ≤ t.mct.window.sum →
          causeAdded (some .strokeRepeat) { s.mct.safe with strokeRepeat := true } x y) ∧
        t =
          ((y.setSsq { y.ssq with history := t.ssq.history, stroke := none, phase := .idle }).setLif
            (wantLevelPost (ownStation s) y.lif)).setMct { y.mct with settling := false }) ∧
      (st.kind = .calibration → t.mct.window = s.mct.window ∧
        ∃ step joinMs,
          (s.srs.step = .calibrating → step = .joinListen ∧ joinMs = 0) ∧
          (s.srs.step ≠ .calibrating → step = s.srs.step ∧ joinMs = s.srs.joinMs) ∧
          (calibratedStroke st = none → t.srs = { s.srs with step := step, joinMs := joinMs }) ∧
          ∀ m w, calibratedStroke st = some m →
            w = { block := { s.srs.active with fullStroke := some m, calibrateNext := 0,
                                               smax := min s.srs.active.smax (m - 10) },
                  forStore := false } →
              t.srs =
                { s.srs with
                  active := { s.srs.active with fullStroke := some m }
                  staged :=
                    { s.srs.staged with fullStroke := some m, calibrateNext := 0, smax := min s.srs.staged.smax (m - 10) }
                  calibrationPending := false
                  write := if s.srs.loadResult = .good ∧ s.srs.write = none then some w else s.srs.write
                  stored := if s.srs.loadResult = .good ∧ s.srs.write = none then none else s.srs.stored
                  writesWaiting :=
                    if s.srs.loadResult = .good ∧ s.srs.write ≠ none then s.srs.writesWaiting ++ [w]
                    else s.srs.writesWaiting
                  step := step
                  joinMs := joinMs }) ∧
      (s.fct.pour ≠ .pouring →
        (c = none → t.lco = releasePass h s.lco) ∧
          ∀ k, c = some k → 0 ≤ s.ssq.height →
            t.lco = if k = 0 then releasePass h s.lco else shiftColumn k (h + k) (releasePass h s.lco))) ∧
  ∀ s : State,
    (∀ plane b, BeamSeen plane b s →
      (((laserAt plane b s - s.ssq.height).natAbs ≤ 1000 → 0 ≤ s.ssq.height → s.ssq.height ≤ 1000000 →
          shiftedTo (s.ssq.height + Int.tdiv (laserAt plane b s - s.ssq.height) 4)
            (s.setSsq { s.ssq with laserDisagree := false }) (laserCorrect s)) ∧
        (1000 < (laserAt plane b s - s.ssq.height).natAbs →
          laserCorrect s = s.setSsq { s.ssq with laserDisagree := true })) ∧
      shiftedTo (laserAt plane b s) s (laserAdopt s)) ∧
    ((∀ plane b, ¬ BeamSeen plane b s) → laserCorrect s = s ∧ laserAdopt s = s)

/-! ### The modes' inputs and the lamps -/

/-- HALT_TAKEN, ESTOP_CHANGE, KEY_CHANGE, BEAM_PRESENT_CHANGE and BLINK_PHASE (R121, R138, R143 to R146, R203), and the lamps
(R202 to R204): each of the three follows its selection, from a code's source, invert flag and blink part, while the outputs are
driven, and is dark otherwise; the defaults are SAFE fast, HOLD steady and POURING slow. That FAULT and its lamp clear with the
last channel in FAULTED, also where BEAM leaves it for ABSENT, is the model's reading (log entry 34). What else HALT_ALL, the
E-stop and the key bring is spelled by modeFollowed, and the pour block that HALT_ALL, the E-stop and the key in SERVICE begin and
end by blockedNow and blockTested (R99, R100); and the mode by the base and the two sets (R134). -/
def Obligations.HaltAndInputs : Prop :=
  (∀ s : State, pourBlocked s = true ↔ blockedNow s) ∧
  (∀ m : Mct,
    modeOf m =
      if m.safe ≠ noSafe then .safe
      else if m.base = .setup then .setup
      else if m.hold = noHold then .climb
      else .hold) ∧
  (∀ s : State,
    lampOutputs s = [s.srs.active.lamp1, s.srs.active.lamp2, s.srs.active.lamp3].map (lampOutput s) ∧
    (∀ code, s.ldr.lit = false → lampOutput s code = false) ∧
    (∀ code, s.ldr.lit = true → 0 ≤ code → code ≤ 95 →
      (lampOutput s code = true ↔
        (sourceOn (code / 8) s ↔ code % 2 = 0) ∧ (code % 8 / 2 = 1 → s.ldr.slowOn = true) ∧
          (code % 8 / 2 = 2 → s.ldr.fastOn = true))) ∧
    (s.ldr.lit = true → s.srs.active = defaultSettings →
      lampOutputs s =
        [decide (modeOf s.mct = .safe) && s.ldr.fastOn, decide (modeOf s.mct = .hold),
          decide (s.fct.gate = .opening ∨ s.fct.gate = .opened) && s.ldr.slowOn])) ∧
  ∀ s : State, blocksRun s = true →
    (∀ sender p rest, PostTaken sender (.halt p) rest s →
      ∃ t, exec (.haltTaken sender p) s = .next t ∧
        t.mct.lastHalt = some { sender := sender, post := p, minute := s.lco.runClock } ∧
        (p.kind = .climb → t.mct.hold = { s.mct.hold with haltClimb := true } ∧ t.ssq = s.ssq ∧ t.msq = s.msq) ∧
        (p.kind = .all → t.mct.hold = { s.mct.hold with haltAll := true } ∧ t.ssq = cutLeaves s ∧ t.msq = cutWithdraws s) ∧
        (p.kind = .climb →
          modeFollowed s.mct
            ((removed rest s).setMct
              { s.mct with
                lastHalt := some { sender := sender, post := p, minute := s.lco.runClock }
                hold := { s.mct.hold with haltClimb := true } })
            t) ∧
        (p.kind = .all →
          modeFollowed s.mct
            ((((removed rest s).setSsq (cutLeaves s)).setMsq (cutWithdraws s)).setMct
              { s.mct with
                lastHalt := some { sender := sender, post := p, minute := s.lco.runClock }
                hold := { s.mct.hold with haltAll := true } })
            t) ∧
        t.mct.base = s.mct.base ∧ t.mct.safe = s.mct.safe ∧ t.mct.queuedHalt = s.mct.queuedHalt ∧
        (modeOf s.mct = .climb → modeOf t.mct = .hold) ∧ t.lif.fifo = rest ∧ SameElsewhere s t) ∧
    (∀ sender p, sender = ownStation s → exec (.haltTaken sender p) s = .next s) ∧
    (∀ sender p rest, PostOutside sender (.halt p) rest s → exec (.haltTaken sender p) s = .next (removed rest s)) ∧
    (s.mct.estopActive = false →
      ∃ t, exec (.estopChange true) s = .next t ∧ t.mct.estopActive = true ∧
        (∃ u, haltQueued { kind := .all, reason := .estop } u t ∧
          modeFollowed s.mct
            (((s.setSsq (cutLeaves s)).setMsq (cutWithdraws s)).setMct
              { s.mct with estopActive := true, hold := { s.mct.hold with estop := true } })
            u) ∧
        t.mct.hold = { s.mct.hold with estop := true } ∧ t.ssq = cutLeaves s ∧ t.msq = cutWithdraws s ∧
        t.mct.base = s.mct.base ∧ t.mct.safe = s.mct.safe ∧ SameElsewhere s t ∧
        (ownStation s ≠ 0 → s.mct.safe.identityClash = false →
          t.mct.queuedHalt = some { kind := .all, reason := .estop } ∧
            t.lif.haltSlot.map Slot.post = some { kind := .all, reason := .estop }) ∧
        (s.fct.blocked = false → s.fct.pour = .pouring → s.pins.gateClosedLimit = false →
          s.fct.gate = .opening ∨ s.fct.gate = .opened → t.fct.pour = .ending ∧ t.fct.gate = .closing)) ∧
    (s.mct.estopActive = true → exec (.estopChange false) s = .next (s.setMct { s.mct with estopActive := false })) ∧
    (∀ k, ∃ t pos, exec (.keyChange k) s = .next t ∧
      pos =
        (if k.run = true ∧ k.hold = false ∧ k.service = false then KeyPos.run
        else if k.run = false ∧ k.hold = false ∧ k.service = true then .service
        else .hold) ∧
      (pos = s.mct.key → t = s) ∧
      (pos ≠ s.mct.key → t.mct.key = pos) ∧
      (pos ≠ s.mct.key → s.mct.key = .run →
        t.mct.hold = { s.mct.hold with key := true } ∧ t.ssq = cutLeaves s ∧ t.msq = cutWithdraws s ∧
          modeFollowed s.mct
            (((s.setSsq (cutLeaves s)).setMsq (cutWithdraws s)).setMct
              { s.mct with key := pos, hold := { s.mct.hold with key := true } })
            t) ∧
      (pos ≠ s.mct.key → s.mct.key ≠ .run →
        t.mct.hold = (if pos = .run then { s.mct.hold with key := false } else s.mct.hold) ∧ t.ssq = s.ssq ∧
          t.msq = s.msq ∧
          (pos = .run →
            modeFollowed s.mct (s.setMct { s.mct with key := pos, hold := { s.mct.hold with key := false } }) t) ∧
          (pos ≠ .run → blockTested (s.setMct { s.mct with key := pos }) t)) ∧
      t.mct.base = s.mct.base ∧ t.mct.safe = s.mct.safe ∧ SameElsewhere s t) ∧
    (∀ on, on ≠ s.pins.beamPresent →
      exec (.beamPresentChange on) s =
        .next
          ((s.setPins { s.pins with beamPresent := on }).setMsq
            { s.msq with
              table :=
                { s.msq.table with
                  beam :=
                    { value := none, state := if on then .notValid else .absent, fresh := false, outCount := 0,
                      goodCount := 0 } } })) ∧
    (s.ldr.lit = true →
      exec (.blinkPhase true) s = .next (s.setLdr { s.ldr with fastOn := !s.ldr.fastOn, fastMs := 0 }) ∧
        exec (.blinkPhase false) s = .next (s.setLdr { s.ldr with slowOn := !s.ldr.slowOn, slowMs := 0 }))
end

