-- ==== Sys2Proof/Laws/State.lean ====
section
/-! SUPPORT. What each update of one part of the state leaves in every part: one lemma for each field and each update. -/

namespace Sys2Proof.Machine

variable (s : State)

@[simp] theorem State.setLif_lif (x : Lif) : (s.setLif x).lif = x := rfl
@[simp] theorem State.setLif_pvw (x : Lif) : (s.setLif x).pvw = s.pvw := rfl
@[simp] theorem State.setLif_lco (x : Lif) : (s.setLif x).lco = s.lco := rfl
@[simp] theorem State.setLif_cpl (x : Lif) : (s.setLif x).cpl = s.cpl := rfl
@[simp] theorem State.setLif_ssq (x : Lif) : (s.setLif x).ssq = s.ssq := rfl
@[simp] theorem State.setLif_msq (x : Lif) : (s.setLif x).msq = s.msq := rfl
@[simp] theorem State.setLif_fct (x : Lif) : (s.setLif x).fct = s.fct := rfl
@[simp] theorem State.setLif_mct (x : Lif) : (s.setLif x).mct = s.mct := rfl
@[simp] theorem State.setLif_ors (x : Lif) : (s.setLif x).ors = s.ors := rfl
@[simp] theorem State.setLif_srs (x : Lif) : (s.setLif x).srs = s.srs := rfl
@[simp] theorem State.setLif_ldr (x : Lif) : (s.setLif x).ldr = s.ldr := rfl
@[simp] theorem State.setLif_pins (x : Lif) : (s.setLif x).pins = s.pins := rfl
@[simp] theorem State.setLif_nowMs (x : Lif) : (s.setLif x).nowMs = s.nowMs := rfl
@[simp] theorem State.setLif_freeCount (x : Lif) : (s.setLif x).freeCount = s.freeCount := rfl
@[simp] theorem State.setLif_pending (x : Lif) : (s.setLif x).pending = s.pending := rfl

@[simp] theorem State.setPvw_lif (x : Pvw) : (s.setPvw x).lif = s.lif := rfl
@[simp] theorem State.setPvw_pvw (x : Pvw) : (s.setPvw x).pvw = x := rfl
@[simp] theorem State.setPvw_lco (x : Pvw) : (s.setPvw x).lco = s.lco := rfl
@[simp] theorem State.setPvw_cpl (x : Pvw) : (s.setPvw x).cpl = s.cpl := rfl
@[simp] theorem State.setPvw_ssq (x : Pvw) : (s.setPvw x).ssq = s.ssq := rfl
@[simp] theorem State.setPvw_msq (x : Pvw) : (s.setPvw x).msq = s.msq := rfl
@[simp] theorem State.setPvw_fct (x : Pvw) : (s.setPvw x).fct = s.fct := rfl
@[simp] theorem State.setPvw_mct (x : Pvw) : (s.setPvw x).mct = s.mct := rfl
@[simp] theorem State.setPvw_ors (x : Pvw) : (s.setPvw x).ors = s.ors := rfl
@[simp] theorem State.setPvw_srs (x : Pvw) : (s.setPvw x).srs = s.srs := rfl
@[simp] theorem State.setPvw_ldr (x : Pvw) : (s.setPvw x).ldr = s.ldr := rfl
@[simp] theorem State.setPvw_pins (x : Pvw) : (s.setPvw x).pins = s.pins := rfl
@[simp] theorem State.setPvw_nowMs (x : Pvw) : (s.setPvw x).nowMs = s.nowMs := rfl
@[simp] theorem State.setPvw_freeCount (x : Pvw) : (s.setPvw x).freeCount = s.freeCount := rfl
@[simp] theorem State.setPvw_pending (x : Pvw) : (s.setPvw x).pending = s.pending := rfl

@[simp] theorem State.setLco_lif (x : Lco) : (s.setLco x).lif = s.lif := rfl
@[simp] theorem State.setLco_pvw (x : Lco) : (s.setLco x).pvw = s.pvw := rfl
@[simp] theorem State.setLco_lco (x : Lco) : (s.setLco x).lco = x := rfl
@[simp] theorem State.setLco_cpl (x : Lco) : (s.setLco x).cpl = s.cpl := rfl
@[simp] theorem State.setLco_ssq (x : Lco) : (s.setLco x).ssq = s.ssq := rfl
@[simp] theorem State.setLco_msq (x : Lco) : (s.setLco x).msq = s.msq := rfl
@[simp] theorem State.setLco_fct (x : Lco) : (s.setLco x).fct = s.fct := rfl
@[simp] theorem State.setLco_mct (x : Lco) : (s.setLco x).mct = s.mct := rfl
@[simp] theorem State.setLco_ors (x : Lco) : (s.setLco x).ors = s.ors := rfl
@[simp] theorem State.setLco_srs (x : Lco) : (s.setLco x).srs = s.srs := rfl
@[simp] theorem State.setLco_ldr (x : Lco) : (s.setLco x).ldr = s.ldr := rfl
@[simp] theorem State.setLco_pins (x : Lco) : (s.setLco x).pins = s.pins := rfl
@[simp] theorem State.setLco_nowMs (x : Lco) : (s.setLco x).nowMs = s.nowMs := rfl
@[simp] theorem State.setLco_freeCount (x : Lco) : (s.setLco x).freeCount = s.freeCount := rfl
@[simp] theorem State.setLco_pending (x : Lco) : (s.setLco x).pending = s.pending := rfl

@[simp] theorem State.setCpl_lif (x : Cpl) : (s.setCpl x).lif = s.lif := rfl
@[simp] theorem State.setCpl_pvw (x : Cpl) : (s.setCpl x).pvw = s.pvw := rfl
@[simp] theorem State.setCpl_lco (x : Cpl) : (s.setCpl x).lco = s.lco := rfl
@[simp] theorem State.setCpl_cpl (x : Cpl) : (s.setCpl x).cpl = x := rfl
@[simp] theorem State.setCpl_ssq (x : Cpl) : (s.setCpl x).ssq = s.ssq := rfl
@[simp] theorem State.setCpl_msq (x : Cpl) : (s.setCpl x).msq = s.msq := rfl
@[simp] theorem State.setCpl_fct (x : Cpl) : (s.setCpl x).fct = s.fct := rfl
@[simp] theorem State.setCpl_mct (x : Cpl) : (s.setCpl x).mct = s.mct := rfl
@[simp] theorem State.setCpl_ors (x : Cpl) : (s.setCpl x).ors = s.ors := rfl
@[simp] theorem State.setCpl_srs (x : Cpl) : (s.setCpl x).srs = s.srs := rfl
@[simp] theorem State.setCpl_ldr (x : Cpl) : (s.setCpl x).ldr = s.ldr := rfl
@[simp] theorem State.setCpl_pins (x : Cpl) : (s.setCpl x).pins = s.pins := rfl
@[simp] theorem State.setCpl_nowMs (x : Cpl) : (s.setCpl x).nowMs = s.nowMs := rfl
@[simp] theorem State.setCpl_freeCount (x : Cpl) : (s.setCpl x).freeCount = s.freeCount := rfl
@[simp] theorem State.setCpl_pending (x : Cpl) : (s.setCpl x).pending = s.pending := rfl

@[simp] theorem State.setSsq_lif (x : Ssq) : (s.setSsq x).lif = s.lif := rfl
@[simp] theorem State.setSsq_pvw (x : Ssq) : (s.setSsq x).pvw = s.pvw := rfl
@[simp] theorem State.setSsq_lco (x : Ssq) : (s.setSsq x).lco = s.lco := rfl
@[simp] theorem State.setSsq_cpl (x : Ssq) : (s.setSsq x).cpl = s.cpl := rfl
@[simp] theorem State.setSsq_ssq (x : Ssq) : (s.setSsq x).ssq = x := rfl
@[simp] theorem State.setSsq_msq (x : Ssq) : (s.setSsq x).msq = s.msq := rfl
@[simp] theorem State.setSsq_fct (x : Ssq) : (s.setSsq x).fct = s.fct := rfl
@[simp] theorem State.setSsq_mct (x : Ssq) : (s.setSsq x).mct = s.mct := rfl
@[simp] theorem State.setSsq_ors (x : Ssq) : (s.setSsq x).ors = s.ors := rfl
@[simp] theorem State.setSsq_srs (x : Ssq) : (s.setSsq x).srs = s.srs := rfl
@[simp] theorem State.setSsq_ldr (x : Ssq) : (s.setSsq x).ldr = s.ldr := rfl
@[simp] theorem State.setSsq_pins (x : Ssq) : (s.setSsq x).pins = s.pins := rfl
@[simp] theorem State.setSsq_nowMs (x : Ssq) : (s.setSsq x).nowMs = s.nowMs := rfl
@[simp] theorem State.setSsq_freeCount (x : Ssq) : (s.setSsq x).freeCount = s.freeCount := rfl
@[simp] theorem State.setSsq_pending (x : Ssq) : (s.setSsq x).pending = s.pending := rfl

@[simp] theorem State.setMsq_lif (x : Msq) : (s.setMsq x).lif = s.lif := rfl
@[simp] theorem State.setMsq_pvw (x : Msq) : (s.setMsq x).pvw = s.pvw := rfl
@[simp] theorem State.setMsq_lco (x : Msq) : (s.setMsq x).lco = s.lco := rfl
@[simp] theorem State.setMsq_cpl (x : Msq) : (s.setMsq x).cpl = s.cpl := rfl
@[simp] theorem State.setMsq_ssq (x : Msq) : (s.setMsq x).ssq = s.ssq := rfl
@[simp] theorem State.setMsq_msq (x : Msq) : (s.setMsq x).msq = x := rfl
@[simp] theorem State.setMsq_fct (x : Msq) : (s.setMsq x).fct = s.fct := rfl
@[simp] theorem State.setMsq_mct (x : Msq) : (s.setMsq x).mct = s.mct := rfl
@[simp] theorem State.setMsq_ors (x : Msq) : (s.setMsq x).ors = s.ors := rfl
@[simp] theorem State.setMsq_srs (x : Msq) : (s.setMsq x).srs = s.srs := rfl
@[simp] theorem State.setMsq_ldr (x : Msq) : (s.setMsq x).ldr = s.ldr := rfl
@[simp] theorem State.setMsq_pins (x : Msq) : (s.setMsq x).pins = s.pins := rfl
@[simp] theorem State.setMsq_nowMs (x : Msq) : (s.setMsq x).nowMs = s.nowMs := rfl
@[simp] theorem State.setMsq_freeCount (x : Msq) : (s.setMsq x).freeCount = s.freeCount := rfl
@[simp] theorem State.setMsq_pending (x : Msq) : (s.setMsq x).pending = s.pending := rfl

@[simp] theorem State.setFct_lif (x : Fct) : (s.setFct x).lif = s.lif := rfl
@[simp] theorem State.setFct_pvw (x : Fct) : (s.setFct x).pvw = s.pvw := rfl
@[simp] theorem State.setFct_lco (x : Fct) : (s.setFct x).lco = s.lco := rfl
@[simp] theorem State.setFct_cpl (x : Fct) : (s.setFct x).cpl = s.cpl := rfl
@[simp] theorem State.setFct_ssq (x : Fct) : (s.setFct x).ssq = s.ssq := rfl
@[simp] theorem State.setFct_msq (x : Fct) : (s.setFct x).msq = s.msq := rfl
@[simp] theorem State.setFct_fct (x : Fct) : (s.setFct x).fct = x := rfl
@[simp] theorem State.setFct_mct (x : Fct) : (s.setFct x).mct = s.mct := rfl
@[simp] theorem State.setFct_ors (x : Fct) : (s.setFct x).ors = s.ors := rfl
@[simp] theorem State.setFct_srs (x : Fct) : (s.setFct x).srs = s.srs := rfl
@[simp] theorem State.setFct_ldr (x : Fct) : (s.setFct x).ldr = s.ldr := rfl
@[simp] theorem State.setFct_pins (x : Fct) : (s.setFct x).pins = s.pins := rfl
@[simp] theorem State.setFct_nowMs (x : Fct) : (s.setFct x).nowMs = s.nowMs := rfl
@[simp] theorem State.setFct_freeCount (x : Fct) : (s.setFct x).freeCount = s.freeCount := rfl
@[simp] theorem State.setFct_pending (x : Fct) : (s.setFct x).pending = s.pending := rfl

@[simp] theorem State.setMct_lif (x : Mct) : (s.setMct x).lif = s.lif := rfl
@[simp] theorem State.setMct_pvw (x : Mct) : (s.setMct x).pvw = s.pvw := rfl
@[simp] theorem State.setMct_lco (x : Mct) : (s.setMct x).lco = s.lco := rfl
@[simp] theorem State.setMct_cpl (x : Mct) : (s.setMct x).cpl = s.cpl := rfl
@[simp] theorem State.setMct_ssq (x : Mct) : (s.setMct x).ssq = s.ssq := rfl
@[simp] theorem State.setMct_msq (x : Mct) : (s.setMct x).msq = s.msq := rfl
@[simp] theorem State.setMct_fct (x : Mct) : (s.setMct x).fct = s.fct := rfl
@[simp] theorem State.setMct_mct (x : Mct) : (s.setMct x).mct = x := rfl
@[simp] theorem State.setMct_ors (x : Mct) : (s.setMct x).ors = s.ors := rfl
@[simp] theorem State.setMct_srs (x : Mct) : (s.setMct x).srs = s.srs := rfl
@[simp] theorem State.setMct_ldr (x : Mct) : (s.setMct x).ldr = s.ldr := rfl
@[simp] theorem State.setMct_pins (x : Mct) : (s.setMct x).pins = s.pins := rfl
@[simp] theorem State.setMct_nowMs (x : Mct) : (s.setMct x).nowMs = s.nowMs := rfl
@[simp] theorem State.setMct_freeCount (x : Mct) : (s.setMct x).freeCount = s.freeCount := rfl
@[simp] theorem State.setMct_pending (x : Mct) : (s.setMct x).pending = s.pending := rfl

@[simp] theorem State.setOrs_lif (x : Ors) : (s.setOrs x).lif = s.lif := rfl
@[simp] theorem State.setOrs_pvw (x : Ors) : (s.setOrs x).pvw = s.pvw := rfl
@[simp] theorem State.setOrs_lco (x : Ors) : (s.setOrs x).lco = s.lco := rfl
@[simp] theorem State.setOrs_cpl (x : Ors) : (s.setOrs x).cpl = s.cpl := rfl
@[simp] theorem State.setOrs_ssq (x : Ors) : (s.setOrs x).ssq = s.ssq := rfl
@[simp] theorem State.setOrs_msq (x : Ors) : (s.setOrs x).msq = s.msq := rfl
@[simp] theorem State.setOrs_fct (x : Ors) : (s.setOrs x).fct = s.fct := rfl
@[simp] theorem State.setOrs_mct (x : Ors) : (s.setOrs x).mct = s.mct := rfl
@[simp] theorem State.setOrs_ors (x : Ors) : (s.setOrs x).ors = x := rfl
@[simp] theorem State.setOrs_srs (x : Ors) : (s.setOrs x).srs = s.srs := rfl
@[simp] theorem State.setOrs_ldr (x : Ors) : (s.setOrs x).ldr = s.ldr := rfl
@[simp] theorem State.setOrs_pins (x : Ors) : (s.setOrs x).pins = s.pins := rfl
@[simp] theorem State.setOrs_nowMs (x : Ors) : (s.setOrs x).nowMs = s.nowMs := rfl
@[simp] theorem State.setOrs_freeCount (x : Ors) : (s.setOrs x).freeCount = s.freeCount := rfl
@[simp] theorem State.setOrs_pending (x : Ors) : (s.setOrs x).pending = s.pending := rfl

@[simp] theorem State.setSrs_lif (x : Srs) : (s.setSrs x).lif = s.lif := rfl
@[simp] theorem State.setSrs_pvw (x : Srs) : (s.setSrs x).pvw = s.pvw := rfl
@[simp] theorem State.setSrs_lco (x : Srs) : (s.setSrs x).lco = s.lco := rfl
@[simp] theorem State.setSrs_cpl (x : Srs) : (s.setSrs x).cpl = s.cpl := rfl
@[simp] theorem State.setSrs_ssq (x : Srs) : (s.setSrs x).ssq = s.ssq := rfl
@[simp] theorem State.setSrs_msq (x : Srs) : (s.setSrs x).msq = s.msq := rfl
@[simp] theorem State.setSrs_fct (x : Srs) : (s.setSrs x).fct = s.fct := rfl
@[simp] theorem State.setSrs_mct (x : Srs) : (s.setSrs x).mct = s.mct := rfl
@[simp] theorem State.setSrs_ors (x : Srs) : (s.setSrs x).ors = s.ors := rfl
@[simp] theorem State.setSrs_srs (x : Srs) : (s.setSrs x).srs = x := rfl
@[simp] theorem State.setSrs_ldr (x : Srs) : (s.setSrs x).ldr = s.ldr := rfl
@[simp] theorem State.setSrs_pins (x : Srs) : (s.setSrs x).pins = s.pins := rfl
@[simp] theorem State.setSrs_nowMs (x : Srs) : (s.setSrs x).nowMs = s.nowMs := rfl
@[simp] theorem State.setSrs_freeCount (x : Srs) : (s.setSrs x).freeCount = s.freeCount := rfl
@[simp] theorem State.setSrs_pending (x : Srs) : (s.setSrs x).pending = s.pending := rfl

@[simp] theorem State.setLdr_lif (x : Ldr) : (s.setLdr x).lif = s.lif := rfl
@[simp] theorem State.setLdr_pvw (x : Ldr) : (s.setLdr x).pvw = s.pvw := rfl
@[simp] theorem State.setLdr_lco (x : Ldr) : (s.setLdr x).lco = s.lco := rfl
@[simp] theorem State.setLdr_cpl (x : Ldr) : (s.setLdr x).cpl = s.cpl := rfl
@[simp] theorem State.setLdr_ssq (x : Ldr) : (s.setLdr x).ssq = s.ssq := rfl
@[simp] theorem State.setLdr_msq (x : Ldr) : (s.setLdr x).msq = s.msq := rfl
@[simp] theorem State.setLdr_fct (x : Ldr) : (s.setLdr x).fct = s.fct := rfl
@[simp] theorem State.setLdr_mct (x : Ldr) : (s.setLdr x).mct = s.mct := rfl
@[simp] theorem State.setLdr_ors (x : Ldr) : (s.setLdr x).ors = s.ors := rfl
@[simp] theorem State.setLdr_srs (x : Ldr) : (s.setLdr x).srs = s.srs := rfl
@[simp] theorem State.setLdr_ldr (x : Ldr) : (s.setLdr x).ldr = x := rfl
@[simp] theorem State.setLdr_pins (x : Ldr) : (s.setLdr x).pins = s.pins := rfl
@[simp] theorem State.setLdr_nowMs (x : Ldr) : (s.setLdr x).nowMs = s.nowMs := rfl
@[simp] theorem State.setLdr_freeCount (x : Ldr) : (s.setLdr x).freeCount = s.freeCount := rfl
@[simp] theorem State.setLdr_pending (x : Ldr) : (s.setLdr x).pending = s.pending := rfl

@[simp] theorem State.setPins_lif (x : Pins) : (s.setPins x).lif = s.lif := rfl
@[simp] theorem State.setPins_pvw (x : Pins) : (s.setPins x).pvw = s.pvw := rfl
@[simp] theorem State.setPins_lco (x : Pins) : (s.setPins x).lco = s.lco := rfl
@[simp] theorem State.setPins_cpl (x : Pins) : (s.setPins x).cpl = s.cpl := rfl
@[simp] theorem State.setPins_ssq (x : Pins) : (s.setPins x).ssq = s.ssq := rfl
@[simp] theorem State.setPins_msq (x : Pins) : (s.setPins x).msq = s.msq := rfl
@[simp] theorem State.setPins_fct (x : Pins) : (s.setPins x).fct = s.fct := rfl
@[simp] theorem State.setPins_mct (x : Pins) : (s.setPins x).mct = s.mct := rfl
@[simp] theorem State.setPins_ors (x : Pins) : (s.setPins x).ors = s.ors := rfl
@[simp] theorem State.setPins_srs (x : Pins) : (s.setPins x).srs = s.srs := rfl
@[simp] theorem State.setPins_ldr (x : Pins) : (s.setPins x).ldr = s.ldr := rfl
@[simp] theorem State.setPins_pins (x : Pins) : (s.setPins x).pins = x := rfl
@[simp] theorem State.setPins_nowMs (x : Pins) : (s.setPins x).nowMs = s.nowMs := rfl
@[simp] theorem State.setPins_freeCount (x : Pins) : (s.setPins x).freeCount = s.freeCount := rfl
@[simp] theorem State.setPins_pending (x : Pins) : (s.setPins x).pending = s.pending := rfl

@[simp] theorem State.setNowMs_lif (x : Nat) : (s.setNowMs x).lif = s.lif := rfl
@[simp] theorem State.setNowMs_pvw (x : Nat) : (s.setNowMs x).pvw = s.pvw := rfl
@[simp] theorem State.setNowMs_lco (x : Nat) : (s.setNowMs x).lco = s.lco := rfl
@[simp] theorem State.setNowMs_cpl (x : Nat) : (s.setNowMs x).cpl = s.cpl := rfl
@[simp] theorem State.setNowMs_ssq (x : Nat) : (s.setNowMs x).ssq = s.ssq := rfl
@[simp] theorem State.setNowMs_msq (x : Nat) : (s.setNowMs x).msq = s.msq := rfl
@[simp] theorem State.setNowMs_fct (x : Nat) : (s.setNowMs x).fct = s.fct := rfl
@[simp] theorem State.setNowMs_mct (x : Nat) : (s.setNowMs x).mct = s.mct := rfl
@[simp] theorem State.setNowMs_ors (x : Nat) : (s.setNowMs x).ors = s.ors := rfl
@[simp] theorem State.setNowMs_srs (x : Nat) : (s.setNowMs x).srs = s.srs := rfl
@[simp] theorem State.setNowMs_ldr (x : Nat) : (s.setNowMs x).ldr = s.ldr := rfl
@[simp] theorem State.setNowMs_pins (x : Nat) : (s.setNowMs x).pins = s.pins := rfl
@[simp] theorem State.setNowMs_nowMs (x : Nat) : (s.setNowMs x).nowMs = x := rfl
@[simp] theorem State.setNowMs_freeCount (x : Nat) : (s.setNowMs x).freeCount = s.freeCount := rfl
@[simp] theorem State.setNowMs_pending (x : Nat) : (s.setNowMs x).pending = s.pending := rfl

@[simp] theorem State.setFreeCount_lif (x : Nat) : (s.setFreeCount x).lif = s.lif := rfl
@[simp] theorem State.setFreeCount_pvw (x : Nat) : (s.setFreeCount x).pvw = s.pvw := rfl
@[simp] theorem State.setFreeCount_lco (x : Nat) : (s.setFreeCount x).lco = s.lco := rfl
@[simp] theorem State.setFreeCount_cpl (x : Nat) : (s.setFreeCount x).cpl = s.cpl := rfl
@[simp] theorem State.setFreeCount_ssq (x : Nat) : (s.setFreeCount x).ssq = s.ssq := rfl
@[simp] theorem State.setFreeCount_msq (x : Nat) : (s.setFreeCount x).msq = s.msq := rfl
@[simp] theorem State.setFreeCount_fct (x : Nat) : (s.setFreeCount x).fct = s.fct := rfl
@[simp] theorem State.setFreeCount_mct (x : Nat) : (s.setFreeCount x).mct = s.mct := rfl
@[simp] theorem State.setFreeCount_ors (x : Nat) : (s.setFreeCount x).ors = s.ors := rfl
@[simp] theorem State.setFreeCount_srs (x : Nat) : (s.setFreeCount x).srs = s.srs := rfl
@[simp] theorem State.setFreeCount_ldr (x : Nat) : (s.setFreeCount x).ldr = s.ldr := rfl
@[simp] theorem State.setFreeCount_pins (x : Nat) : (s.setFreeCount x).pins = s.pins := rfl
@[simp] theorem State.setFreeCount_nowMs (x : Nat) : (s.setFreeCount x).nowMs = s.nowMs := rfl
@[simp] theorem State.setFreeCount_freeCount (x : Nat) : (s.setFreeCount x).freeCount = x := rfl
@[simp] theorem State.setFreeCount_pending (x : Nat) : (s.setFreeCount x).pending = s.pending := rfl

@[simp] theorem State.setPending_lif (x : List Instr) : (s.setPending x).lif = s.lif := rfl
@[simp] theorem State.setPending_pvw (x : List Instr) : (s.setPending x).pvw = s.pvw := rfl
@[simp] theorem State.setPending_lco (x : List Instr) : (s.setPending x).lco = s.lco := rfl
@[simp] theorem State.setPending_cpl (x : List Instr) : (s.setPending x).cpl = s.cpl := rfl
@[simp] theorem State.setPending_ssq (x : List Instr) : (s.setPending x).ssq = s.ssq := rfl
@[simp] theorem State.setPending_msq (x : List Instr) : (s.setPending x).msq = s.msq := rfl
@[simp] theorem State.setPending_fct (x : List Instr) : (s.setPending x).fct = s.fct := rfl
@[simp] theorem State.setPending_mct (x : List Instr) : (s.setPending x).mct = s.mct := rfl
@[simp] theorem State.setPending_ors (x : List Instr) : (s.setPending x).ors = s.ors := rfl
@[simp] theorem State.setPending_srs (x : List Instr) : (s.setPending x).srs = s.srs := rfl
@[simp] theorem State.setPending_ldr (x : List Instr) : (s.setPending x).ldr = s.ldr := rfl
@[simp] theorem State.setPending_pins (x : List Instr) : (s.setPending x).pins = s.pins := rfl
@[simp] theorem State.setPending_nowMs (x : List Instr) : (s.setPending x).nowMs = s.nowMs := rfl
@[simp] theorem State.setPending_freeCount (x : List Instr) : (s.setPending x).freeCount = s.freeCount := rfl
@[simp] theorem State.setPending_pending (x : List Instr) : (s.setPending x).pending = x := rfl

end Sys2Proof.Machine
end

