-- ==== Sys2Proof/Laws/Ops.lean ====
section
/-! SUPPORT. The frames of the operations of Machine/Ops.lean: which parts of the state each of them leaves as they are. -/

namespace Sys2Proof.Machine

/-- `requestLevel` changes lif alone. -/
@[simp] theorem requestLevel_frame (s : State) :
    (requestLevel s).pvw = s.pvw ∧ (requestLevel s).lco = s.lco ∧ (requestLevel s).cpl = s.cpl ∧
    (requestLevel s).ssq = s.ssq ∧ (requestLevel s).msq = s.msq ∧ (requestLevel s).fct = s.fct ∧
    (requestLevel s).mct = s.mct ∧ (requestLevel s).ors = s.ors ∧ (requestLevel s).srs = s.srs ∧
    (requestLevel s).ldr = s.ldr ∧ (requestLevel s).pins = s.pins ∧ (requestLevel s).nowMs = s.nowMs ∧
    (requestLevel s).freeCount = s.freeCount ∧ (requestLevel s).pending = s.pending := by
  simp [requestLevel]

/-- `queueGate` changes lif alone. -/
@[simp] theorem queueGate_frame (y : Bool) (s : State) :
    (queueGate y s).pvw = s.pvw ∧ (queueGate y s).lco = s.lco ∧ (queueGate y s).cpl = s.cpl ∧ (queueGate y s).ssq = s.ssq ∧
    (queueGate y s).msq = s.msq ∧ (queueGate y s).fct = s.fct ∧ (queueGate y s).mct = s.mct ∧ (queueGate y s).ors = s.ors ∧
    (queueGate y s).srs = s.srs ∧ (queueGate y s).ldr = s.ldr ∧ (queueGate y s).pins = s.pins ∧
    (queueGate y s).nowMs = s.nowMs ∧ (queueGate y s).freeCount = s.freeCount ∧ (queueGate y s).pending = s.pending := by
  simp only [queueGate]
  (repeat' split) <;> simp

/-- `queueHalt` changes lif, mct alone. -/
@[simp] theorem queueHalt_frame (p : HaltPost) (s : State) :
    (queueHalt p s).pvw = s.pvw ∧ (queueHalt p s).lco = s.lco ∧ (queueHalt p s).cpl = s.cpl ∧ (queueHalt p s).ssq = s.ssq ∧
    (queueHalt p s).msq = s.msq ∧ (queueHalt p s).fct = s.fct ∧ (queueHalt p s).ors = s.ors ∧ (queueHalt p s).srs = s.srs ∧
    (queueHalt p s).ldr = s.ldr ∧ (queueHalt p s).pins = s.pins ∧ (queueHalt p s).nowMs = s.nowMs ∧
    (queueHalt p s).freeCount = s.freeCount ∧ (queueHalt p s).pending = s.pending := by
  simp only [queueHalt]
  (repeat' split) <;> simp

/-- `frameShiftTo` changes ssq, lco alone. -/
@[simp] theorem frameShiftTo_frame (h : Int) (v : Bool) (s : State) :
    (frameShiftTo h v s).lif = s.lif ∧ (frameShiftTo h v s).pvw = s.pvw ∧ (frameShiftTo h v s).cpl = s.cpl ∧
    (frameShiftTo h v s).msq = s.msq ∧ (frameShiftTo h v s).fct = s.fct ∧ (frameShiftTo h v s).mct = s.mct ∧
    (frameShiftTo h v s).ors = s.ors ∧ (frameShiftTo h v s).srs = s.srs ∧ (frameShiftTo h v s).ldr = s.ldr ∧
    (frameShiftTo h v s).pins = s.pins ∧ (frameShiftTo h v s).nowMs = s.nowMs ∧
    (frameShiftTo h v s).freeCount = s.freeCount ∧ (frameShiftTo h v s).pending = s.pending := by
  simp only [frameShiftTo]
  (repeat' split) <;> simp

/-- `cutStroke` changes msq, ssq alone. -/
@[simp] theorem cutStroke_frame (s : State) :
    (cutStroke s).lif = s.lif ∧ (cutStroke s).pvw = s.pvw ∧ (cutStroke s).lco = s.lco ∧ (cutStroke s).cpl = s.cpl ∧
    (cutStroke s).fct = s.fct ∧ (cutStroke s).mct = s.mct ∧ (cutStroke s).ors = s.ors ∧ (cutStroke s).srs = s.srs ∧
    (cutStroke s).ldr = s.ldr ∧ (cutStroke s).pins = s.pins ∧ (cutStroke s).nowMs = s.nowMs ∧
    (cutStroke s).freeCount = s.freeCount ∧ (cutStroke s).pending = s.pending := by
  simp only [cutStroke]
  (repeat' split) <;> simp

/-- `setPour` changes fct alone. -/
@[simp] theorem setPour_frame (p : PourState) (s : State) :
    (setPour p s).lif = s.lif ∧ (setPour p s).pvw = s.pvw ∧ (setPour p s).lco = s.lco ∧ (setPour p s).cpl = s.cpl ∧
    (setPour p s).ssq = s.ssq ∧ (setPour p s).msq = s.msq ∧ (setPour p s).mct = s.mct ∧ (setPour p s).ors = s.ors ∧
    (setPour p s).srs = s.srs ∧ (setPour p s).ldr = s.ldr ∧ (setPour p s).pins = s.pins ∧ (setPour p s).nowMs = s.nowMs ∧
    (setPour p s).freeCount = s.freeCount ∧ (setPour p s).pending = s.pending := by
  simp [setPour]

/-- `gateChanged` changes lif alone. -/
@[simp] theorem gateChanged_frame (y : Bool) (s : State) :
    (gateChanged y s).pvw = s.pvw ∧ (gateChanged y s).lco = s.lco ∧ (gateChanged y s).cpl = s.cpl ∧
    (gateChanged y s).ssq = s.ssq ∧ (gateChanged y s).msq = s.msq ∧ (gateChanged y s).fct = s.fct ∧
    (gateChanged y s).mct = s.mct ∧ (gateChanged y s).ors = s.ors ∧ (gateChanged y s).srs = s.srs ∧
    (gateChanged y s).ldr = s.ldr ∧ (gateChanged y s).pins = s.pins ∧ (gateChanged y s).nowMs = s.nowMs ∧
    (gateChanged y s).freeCount = s.freeCount ∧ (gateChanged y s).pending = s.pending := by
  simp [gateChanged]

/-- `tryClaim` changes lif, fct alone. -/
@[simp] theorem tryClaim_frame (s : State) :
    (tryClaim s).pvw = s.pvw ∧ (tryClaim s).lco = s.lco ∧ (tryClaim s).cpl = s.cpl ∧ (tryClaim s).ssq = s.ssq ∧
    (tryClaim s).msq = s.msq ∧ (tryClaim s).mct = s.mct ∧ (tryClaim s).ors = s.ors ∧ (tryClaim s).srs = s.srs ∧
    (tryClaim s).ldr = s.ldr ∧ (tryClaim s).pins = s.pins ∧ (tryClaim s).nowMs = s.nowMs ∧
    (tryClaim s).freeCount = s.freeCount ∧ (tryClaim s).pending = s.pending := by
  simp only [tryClaim]
  (repeat' split) <;> simp

/-- `enterWant` changes lif, fct alone. -/
@[simp] theorem enterWant_frame (s : State) :
    (enterWant s).pvw = s.pvw ∧ (enterWant s).lco = s.lco ∧ (enterWant s).cpl = s.cpl ∧ (enterWant s).ssq = s.ssq ∧
    (enterWant s).msq = s.msq ∧ (enterWant s).mct = s.mct ∧ (enterWant s).ors = s.ors ∧ (enterWant s).srs = s.srs ∧
    (enterWant s).ldr = s.ldr ∧ (enterWant s).pins = s.pins ∧ (enterWant s).nowMs = s.nowMs ∧
    (enterWant s).freeCount = s.freeCount ∧ (enterWant s).pending = s.pending := by
  simp [enterWant]

/-- `wantOrDry` changes lif, fct alone. -/
@[simp] theorem wantOrDry_frame (s : State) :
    (wantOrDry s).pvw = s.pvw ∧ (wantOrDry s).lco = s.lco ∧ (wantOrDry s).cpl = s.cpl ∧ (wantOrDry s).ssq = s.ssq ∧
    (wantOrDry s).msq = s.msq ∧ (wantOrDry s).mct = s.mct ∧ (wantOrDry s).ors = s.ors ∧ (wantOrDry s).srs = s.srs ∧
    (wantOrDry s).ldr = s.ldr ∧ (wantOrDry s).pins = s.pins ∧ (wantOrDry s).nowMs = s.nowMs ∧
    (wantOrDry s).freeCount = s.freeCount ∧ (wantOrDry s).pending = s.pending := by
  simp only [wantOrDry]
  (repeat' split) <;> simp

/-- `testDry` changes lif, fct alone. -/
@[simp] theorem testDry_frame (s : State) :
    (testDry s).pvw = s.pvw ∧ (testDry s).lco = s.lco ∧ (testDry s).cpl = s.cpl ∧ (testDry s).ssq = s.ssq ∧
    (testDry s).msq = s.msq ∧ (testDry s).mct = s.mct ∧ (testDry s).ors = s.ors ∧ (testDry s).srs = s.srs ∧
    (testDry s).ldr = s.ldr ∧ (testDry s).pins = s.pins ∧ (testDry s).nowMs = s.nowMs ∧
    (testDry s).freeCount = s.freeCount ∧ (testDry s).pending = s.pending := by
  simp only [testDry]
  (repeat' split) <;> simp

/-- `enterBackoff` changes fct alone. -/
@[simp] theorem enterBackoff_frame (n : Nat) (s : State) :
    (enterBackoff n s).lif = s.lif ∧ (enterBackoff n s).pvw = s.pvw ∧ (enterBackoff n s).lco = s.lco ∧
    (enterBackoff n s).cpl = s.cpl ∧ (enterBackoff n s).ssq = s.ssq ∧ (enterBackoff n s).msq = s.msq ∧
    (enterBackoff n s).mct = s.mct ∧ (enterBackoff n s).ors = s.ors ∧ (enterBackoff n s).srs = s.srs ∧
    (enterBackoff n s).ldr = s.ldr ∧ (enterBackoff n s).pins = s.pins ∧ (enterBackoff n s).nowMs = s.nowMs ∧
    (enterBackoff n s).freeCount = s.freeCount ∧ (enterBackoff n s).pending = s.pending := by
  simp [enterBackoff]

/-- `enterClosed` changes lif, fct alone. -/
@[simp] theorem enterClosed_frame (s : State) :
    (enterClosed s).pvw = s.pvw ∧ (enterClosed s).lco = s.lco ∧ (enterClosed s).cpl = s.cpl ∧ (enterClosed s).ssq = s.ssq ∧
    (enterClosed s).msq = s.msq ∧ (enterClosed s).mct = s.mct ∧ (enterClosed s).ors = s.ors ∧ (enterClosed s).srs = s.srs ∧
    (enterClosed s).ldr = s.ldr ∧ (enterClosed s).pins = s.pins ∧ (enterClosed s).nowMs = s.nowMs ∧
    (enterClosed s).freeCount = s.freeCount ∧ (enterClosed s).pending = s.pending := by
  simp only [enterClosed]
  (repeat' split) <;> simp

/-- `enterClosing` changes lif, fct alone. -/
@[simp] theorem enterClosing_frame (y : Bool) (s : State) :
    (enterClosing y s).pvw = s.pvw ∧ (enterClosing y s).lco = s.lco ∧ (enterClosing y s).cpl = s.cpl ∧
    (enterClosing y s).ssq = s.ssq ∧ (enterClosing y s).msq = s.msq ∧ (enterClosing y s).mct = s.mct ∧
    (enterClosing y s).ors = s.ors ∧ (enterClosing y s).srs = s.srs ∧ (enterClosing y s).ldr = s.ldr ∧
    (enterClosing y s).pins = s.pins ∧ (enterClosing y s).nowMs = s.nowMs ∧ (enterClosing y s).freeCount = s.freeCount ∧
    (enterClosing y s).pending = s.pending := by
  simp only [enterClosing]
  (repeat' split) <;> simp

/-- `enterOpened` changes lif, fct alone. -/
@[simp] theorem enterOpened_frame (s : State) :
    (enterOpened s).pvw = s.pvw ∧ (enterOpened s).lco = s.lco ∧ (enterOpened s).cpl = s.cpl ∧ (enterOpened s).ssq = s.ssq ∧
    (enterOpened s).msq = s.msq ∧ (enterOpened s).mct = s.mct ∧ (enterOpened s).ors = s.ors ∧ (enterOpened s).srs = s.srs ∧
    (enterOpened s).ldr = s.ldr ∧ (enterOpened s).pins = s.pins ∧ (enterOpened s).nowMs = s.nowMs ∧
    (enterOpened s).freeCount = s.freeCount ∧ (enterOpened s).pending = s.pending := by
  simp [enterOpened]

/-- `enterOpening` changes lif, fct alone. -/
@[simp] theorem enterOpening_frame (s : State) :
    (enterOpening s).pvw = s.pvw ∧ (enterOpening s).lco = s.lco ∧ (enterOpening s).cpl = s.cpl ∧
    (enterOpening s).ssq = s.ssq ∧ (enterOpening s).msq = s.msq ∧ (enterOpening s).mct = s.mct ∧
    (enterOpening s).ors = s.ors ∧ (enterOpening s).srs = s.srs ∧ (enterOpening s).ldr = s.ldr ∧
    (enterOpening s).pins = s.pins ∧ (enterOpening s).nowMs = s.nowMs ∧ (enterOpening s).freeCount = s.freeCount ∧
    (enterOpening s).pending = s.pending := by
  simp only [enterOpening]
  (repeat' split) <;> simp

/-- `endPour` changes lif, fct, lco alone. -/
@[simp] theorem endPour_frame (r : EndReason) (s : State) :
    (endPour r s).pvw = s.pvw ∧ (endPour r s).cpl = s.cpl ∧ (endPour r s).ssq = s.ssq ∧ (endPour r s).msq = s.msq ∧
    (endPour r s).mct = s.mct ∧ (endPour r s).ors = s.ors ∧ (endPour r s).srs = s.srs ∧ (endPour r s).ldr = s.ldr ∧
    (endPour r s).pins = s.pins ∧ (endPour r s).nowMs = s.nowMs ∧ (endPour r s).freeCount = s.freeCount ∧
    (endPour r s).pending = s.pending := by
  simp only [endPour]
  (repeat' split) <;> simp

/-- `openPour` changes lif, fct, lco alone. -/
@[simp] theorem openPour_frame (n : Int) (s : State) :
    (openPour n s).pvw = s.pvw ∧ (openPour n s).cpl = s.cpl ∧ (openPour n s).ssq = s.ssq ∧ (openPour n s).msq = s.msq ∧
    (openPour n s).mct = s.mct ∧ (openPour n s).ors = s.ors ∧ (openPour n s).srs = s.srs ∧ (openPour n s).ldr = s.ldr ∧
    (openPour n s).pins = s.pins ∧ (openPour n s).nowMs = s.nowMs ∧ (openPour n s).freeCount = s.freeCount ∧
    (openPour n s).pending = s.pending := by
  simp [openPour]

/-- `abandonClaim` changes lif, fct alone. -/
@[simp] theorem abandonClaim_frame (s : State) :
    (abandonClaim s).pvw = s.pvw ∧ (abandonClaim s).lco = s.lco ∧ (abandonClaim s).cpl = s.cpl ∧
    (abandonClaim s).ssq = s.ssq ∧ (abandonClaim s).msq = s.msq ∧ (abandonClaim s).mct = s.mct ∧
    (abandonClaim s).ors = s.ors ∧ (abandonClaim s).srs = s.srs ∧ (abandonClaim s).ldr = s.ldr ∧
    (abandonClaim s).pins = s.pins ∧ (abandonClaim s).nowMs = s.nowMs ∧ (abandonClaim s).freeCount = s.freeCount ∧
    (abandonClaim s).pending = s.pending := by
  simp only [abandonClaim]
  (repeat' split) <;> simp

/-- `beginBlock` changes lif, fct, lco alone. -/
@[simp] theorem beginBlock_frame (s : State) :
    (beginBlock s).pvw = s.pvw ∧ (beginBlock s).cpl = s.cpl ∧ (beginBlock s).ssq = s.ssq ∧ (beginBlock s).msq = s.msq ∧
    (beginBlock s).mct = s.mct ∧ (beginBlock s).ors = s.ors ∧ (beginBlock s).srs = s.srs ∧ (beginBlock s).ldr = s.ldr ∧
    (beginBlock s).pins = s.pins ∧ (beginBlock s).nowMs = s.nowMs ∧ (beginBlock s).freeCount = s.freeCount ∧
    (beginBlock s).pending = s.pending := by
  simp only [beginBlock]
  (repeat' split) <;> simp

/-- `reportBlock` changes lif, fct, lco alone. -/
@[simp] theorem reportBlock_frame (s : State) :
    (reportBlock s).pvw = s.pvw ∧ (reportBlock s).cpl = s.cpl ∧ (reportBlock s).ssq = s.ssq ∧ (reportBlock s).msq = s.msq ∧
    (reportBlock s).mct = s.mct ∧ (reportBlock s).ors = s.ors ∧ (reportBlock s).srs = s.srs ∧ (reportBlock s).ldr = s.ldr ∧
    (reportBlock s).pins = s.pins ∧ (reportBlock s).nowMs = s.nowMs ∧ (reportBlock s).freeCount = s.freeCount ∧
    (reportBlock s).pending = s.pending := by
  simp only [reportBlock]
  (repeat' split) <;> simp

/-- `yieldTest` changes lif, fct, lco alone. -/
@[simp] theorem yieldTest_frame (s : State) :
    (yieldTest s).pvw = s.pvw ∧ (yieldTest s).cpl = s.cpl ∧ (yieldTest s).ssq = s.ssq ∧ (yieldTest s).msq = s.msq ∧
    (yieldTest s).mct = s.mct ∧ (yieldTest s).ors = s.ors ∧ (yieldTest s).srs = s.srs ∧ (yieldTest s).ldr = s.ldr ∧
    (yieldTest s).pins = s.pins ∧ (yieldTest s).nowMs = s.nowMs ∧ (yieldTest s).freeCount = s.freeCount ∧
    (yieldTest s).pending = s.pending := by
  simp only [yieldTest]
  (repeat' split) <;> simp

/-- `signalFeed` changes lif, fct, lco alone. -/
@[simp] theorem signalFeed_frame (a b : Bool) (s : State) :
    (signalFeed a b s).pvw = s.pvw ∧ (signalFeed a b s).cpl = s.cpl ∧ (signalFeed a b s).ssq = s.ssq ∧
    (signalFeed a b s).msq = s.msq ∧ (signalFeed a b s).mct = s.mct ∧ (signalFeed a b s).ors = s.ors ∧
    (signalFeed a b s).srs = s.srs ∧ (signalFeed a b s).ldr = s.ldr ∧ (signalFeed a b s).pins = s.pins ∧
    (signalFeed a b s).nowMs = s.nowMs ∧ (signalFeed a b s).freeCount = s.freeCount ∧
    (signalFeed a b s).pending = s.pending := by
  simp only [signalFeed]
  (repeat' split) <;> simp

/-- `raiseBindNeed` changes lif, fct alone. -/
@[simp] theorem raiseBindNeed_frame (s : State) :
    (raiseBindNeed s).pvw = s.pvw ∧ (raiseBindNeed s).lco = s.lco ∧ (raiseBindNeed s).cpl = s.cpl ∧
    (raiseBindNeed s).ssq = s.ssq ∧ (raiseBindNeed s).msq = s.msq ∧ (raiseBindNeed s).mct = s.mct ∧
    (raiseBindNeed s).ors = s.ors ∧ (raiseBindNeed s).srs = s.srs ∧ (raiseBindNeed s).ldr = s.ldr ∧
    (raiseBindNeed s).pins = s.pins ∧ (raiseBindNeed s).nowMs = s.nowMs ∧ (raiseBindNeed s).freeCount = s.freeCount ∧
    (raiseBindNeed s).pending = s.pending := by
  simp only [raiseBindNeed]
  (repeat' split) <;> simp

/-- `afterCauses` changes lif, ors, mct, fct, lco alone. -/
@[simp] theorem afterCauses_frame (m : Mct) (s : State) :
    (afterCauses m s).pvw = s.pvw ∧ (afterCauses m s).cpl = s.cpl ∧ (afterCauses m s).ssq = s.ssq ∧
    (afterCauses m s).msq = s.msq ∧ (afterCauses m s).srs = s.srs ∧ (afterCauses m s).ldr = s.ldr ∧
    (afterCauses m s).pins = s.pins ∧ (afterCauses m s).nowMs = s.nowMs ∧ (afterCauses m s).freeCount = s.freeCount ∧
    (afterCauses m s).pending = s.pending := by
  simp only [afterCauses]
  (repeat' split) <;> simp

/-- `addHold` changes lif, ors, mct, fct, lco, msq, ssq alone. -/
@[simp] theorem addHold_frame (c : HoldCause) (s : State) :
    (addHold c s).pvw = s.pvw ∧ (addHold c s).cpl = s.cpl ∧ (addHold c s).srs = s.srs ∧ (addHold c s).ldr = s.ldr ∧
    (addHold c s).pins = s.pins ∧ (addHold c s).nowMs = s.nowMs ∧ (addHold c s).freeCount = s.freeCount ∧
    (addHold c s).pending = s.pending := by
  simp only [addHold]
  (repeat' split) <;> simp

/-- `removeHold` changes lif, ors, mct, fct, lco alone. -/
@[simp] theorem removeHold_frame (c : HoldCause) (s : State) :
    (removeHold c s).pvw = s.pvw ∧ (removeHold c s).cpl = s.cpl ∧ (removeHold c s).ssq = s.ssq ∧
    (removeHold c s).msq = s.msq ∧ (removeHold c s).srs = s.srs ∧ (removeHold c s).ldr = s.ldr ∧
    (removeHold c s).pins = s.pins ∧ (removeHold c s).nowMs = s.nowMs ∧ (removeHold c s).freeCount = s.freeCount ∧
    (removeHold c s).pending = s.pending := by
  simp [removeHold]

/-- `haltForEntry` changes lif, mct alone. -/
@[simp] theorem haltForEntry_frame (c : SafeCause) (s : State) :
    (haltForEntry c s).pvw = s.pvw ∧ (haltForEntry c s).lco = s.lco ∧ (haltForEntry c s).cpl = s.cpl ∧
    (haltForEntry c s).ssq = s.ssq ∧ (haltForEntry c s).msq = s.msq ∧ (haltForEntry c s).fct = s.fct ∧
    (haltForEntry c s).ors = s.ors ∧ (haltForEntry c s).srs = s.srs ∧ (haltForEntry c s).ldr = s.ldr ∧
    (haltForEntry c s).pins = s.pins ∧ (haltForEntry c s).nowMs = s.nowMs ∧ (haltForEntry c s).freeCount = s.freeCount ∧
    (haltForEntry c s).pending = s.pending := by
  simp only [haltForEntry]
  (repeat' split) <;> simp

/-- `addSafe` changes lif, ors, mct, fct, lco, msq, ssq alone. -/
@[simp] theorem addSafe_frame (c : SafeCause) (s : State) :
    (addSafe c s).pvw = s.pvw ∧ (addSafe c s).cpl = s.cpl ∧ (addSafe c s).srs = s.srs ∧ (addSafe c s).ldr = s.ldr ∧
    (addSafe c s).pins = s.pins ∧ (addSafe c s).nowMs = s.nowMs ∧ (addSafe c s).freeCount = s.freeCount ∧
    (addSafe c s).pending = s.pending := by
  simp only [addSafe]
  (repeat' split) <;> simp

/-- `reduceSafe` changes lif, ors, mct, fct, lco alone. -/
@[simp] theorem reduceSafe_frame (f : SafeSet) (s : State) :
    (reduceSafe f s).pvw = s.pvw ∧ (reduceSafe f s).cpl = s.cpl ∧ (reduceSafe f s).ssq = s.ssq ∧
    (reduceSafe f s).msq = s.msq ∧ (reduceSafe f s).srs = s.srs ∧ (reduceSafe f s).ldr = s.ldr ∧
    (reduceSafe f s).pins = s.pins ∧ (reduceSafe f s).nowMs = s.nowMs ∧ (reduceSafe f s).freeCount = s.freeCount ∧
    (reduceSafe f s).pending = s.pending := by
  simp only [reduceSafe]
  (repeat' split) <;> simp

/-- `removeSafe` changes lif, ors, mct, fct, lco alone. -/
@[simp] theorem removeSafe_frame (c : SafeCause) (s : State) :
    (removeSafe c s).pvw = s.pvw ∧ (removeSafe c s).cpl = s.cpl ∧ (removeSafe c s).ssq = s.ssq ∧
    (removeSafe c s).msq = s.msq ∧ (removeSafe c s).srs = s.srs ∧ (removeSafe c s).ldr = s.ldr ∧
    (removeSafe c s).pins = s.pins ∧ (removeSafe c s).nowMs = s.nowMs ∧ (removeSafe c s).freeCount = s.freeCount ∧
    (removeSafe c s).pending = s.pending := by
  simp [removeSafe]

/-- `retestClash` changes lif, ors, mct, fct, lco, msq, ssq, pvw alone. -/
@[simp] theorem retestClash_frame (s : State) :
    (retestClash s).cpl = s.cpl ∧ (retestClash s).srs = s.srs ∧ (retestClash s).ldr = s.ldr ∧
    (retestClash s).pins = s.pins ∧ (retestClash s).nowMs = s.nowMs ∧ (retestClash s).freeCount = s.freeCount ∧
    (retestClash s).pending = s.pending := by
  simp only [retestClash]
  (repeat' split) <;> simp

/-- `identityClash` changes lif, ors, mct, fct, lco, msq, ssq, pvw alone. -/
@[simp] theorem identityClash_frame (s : State) :
    (identityClash s).cpl = s.cpl ∧ (identityClash s).srs = s.srs ∧ (identityClash s).ldr = s.ldr ∧
    (identityClash s).pins = s.pins ∧ (identityClash s).nowMs = s.nowMs ∧ (identityClash s).freeCount = s.freeCount ∧
    (identityClash s).pending = s.pending := by
  simp [identityClash]

/-- `sendReply` changes lif alone. -/
@[simp] theorem sendReply_frame (n : Nat) (code : Byte) (r : Result) (d : List Byte) (s : State) :
    (sendReply n code r d s).pvw = s.pvw ∧ (sendReply n code r d s).lco = s.lco ∧ (sendReply n code r d s).cpl = s.cpl ∧
    (sendReply n code r d s).ssq = s.ssq ∧ (sendReply n code r d s).msq = s.msq ∧ (sendReply n code r d s).fct = s.fct ∧
    (sendReply n code r d s).mct = s.mct ∧ (sendReply n code r d s).ors = s.ors ∧ (sendReply n code r d s).srs = s.srs ∧
    (sendReply n code r d s).ldr = s.ldr ∧ (sendReply n code r d s).pins = s.pins ∧
    (sendReply n code r d s).nowMs = s.nowMs ∧ (sendReply n code r d s).freeCount = s.freeCount ∧
    (sendReply n code r d s).pending = s.pending := by
  simp [sendReply]

/-- `tryRestart` changes srs, and ORS's restart-waiting mark alone. -/
@[simp] theorem tryRestart_frame (s : State) :
    (tryRestart s).lif = s.lif ∧ (tryRestart s).pvw = s.pvw ∧ (tryRestart s).lco = s.lco ∧ (tryRestart s).cpl = s.cpl ∧
    (tryRestart s).ssq = s.ssq ∧ (tryRestart s).msq = s.msq ∧ (tryRestart s).fct = s.fct ∧ (tryRestart s).mct = s.mct ∧
    (tryRestart s).ors.cursor = s.ors.cursor ∧ (tryRestart s).ors.amend = s.ors.amend ∧
    (tryRestart s).ors.storeWaiting = s.ors.storeWaiting ∧ (tryRestart s).ldr = s.ldr ∧ (tryRestart s).pins = s.pins ∧
    (tryRestart s).nowMs = s.nowMs ∧ (tryRestart s).freeCount = s.freeCount ∧ (tryRestart s).pending = s.pending := by
  simp only [tryRestart]
  (repeat' split) <;> simp

/-- The two ways in which `tryRestart` can go (R176, R188, R201). -/
theorem tryRestart_cases (s : State) :
    (s.ors.restartWaiting = true ∧ s.srs.restartReady = true ∧ s.srs.write = none ∧
        tryRestart s = (s.setSrs { s.srs with life := .restarting }).setOrs { s.ors with restartWaiting := false }) ∨
      (¬ (s.ors.restartWaiting = true ∧ s.srs.restartReady = true ∧ s.srs.write = none) ∧ tryRestart s = s) := by
  simp only [tryRestart]
  split
  · next h => exact .inl ⟨h.1, h.2.1, h.2.2, rfl⟩
  · next h => exact .inr ⟨h, rfl⟩

/-- `replyReported` changes srs, and ORS's restart-waiting mark alone. -/
@[simp] theorem replyReported_frame (s : State) :
    (replyReported s).lif = s.lif ∧ (replyReported s).pvw = s.pvw ∧ (replyReported s).lco = s.lco ∧
    (replyReported s).cpl = s.cpl ∧ (replyReported s).ssq = s.ssq ∧ (replyReported s).msq = s.msq ∧
    (replyReported s).fct = s.fct ∧ (replyReported s).mct = s.mct ∧
    (replyReported s).ors.cursor = s.ors.cursor ∧ (replyReported s).ors.amend = s.ors.amend ∧
    (replyReported s).ors.storeWaiting = s.ors.storeWaiting ∧
    (replyReported s).ldr = s.ldr ∧ (replyReported s).pins = s.pins ∧ (replyReported s).nowMs = s.nowMs ∧
    (replyReported s).freeCount = s.freeCount ∧ (replyReported s).pending = s.pending := by
  simp only [replyReported]
  (repeat' split) <;> simp

end Sys2Proof.Machine
end

