-- ==== Sys2Proof/Laws/Stroke.lean ====
section
/-! SUPPORT. The frames of the operations of Machine/Stroke.lean: which parts of the state each of them leaves as they are. -/

namespace Sys2Proof.Machine

/-- `laserCorrect` changes ssq, lco alone. -/
@[simp] theorem laserCorrect_frame (s : State) :
    (laserCorrect s).lif = s.lif ∧ (laserCorrect s).pvw = s.pvw ∧ (laserCorrect s).cpl = s.cpl ∧
    (laserCorrect s).msq = s.msq ∧ (laserCorrect s).fct = s.fct ∧ (laserCorrect s).mct = s.mct ∧
    (laserCorrect s).ors = s.ors ∧ (laserCorrect s).srs = s.srs ∧ (laserCorrect s).ldr = s.ldr ∧
    (laserCorrect s).pins = s.pins ∧ (laserCorrect s).nowMs = s.nowMs ∧ (laserCorrect s).freeCount = s.freeCount ∧
    (laserCorrect s).pending = s.pending := by
  simp only [laserCorrect]
  (repeat' split) <;> simp

/-- `laserAdopt` changes ssq, lco alone. -/
@[simp] theorem laserAdopt_frame (s : State) :
    (laserAdopt s).lif = s.lif ∧ (laserAdopt s).pvw = s.pvw ∧ (laserAdopt s).cpl = s.cpl ∧ (laserAdopt s).msq = s.msq ∧
    (laserAdopt s).fct = s.fct ∧ (laserAdopt s).mct = s.mct ∧ (laserAdopt s).ors = s.ors ∧ (laserAdopt s).srs = s.srs ∧
    (laserAdopt s).ldr = s.ldr ∧ (laserAdopt s).pins = s.pins ∧ (laserAdopt s).nowMs = s.nowMs ∧
    (laserAdopt s).freeCount = s.freeCount ∧ (laserAdopt s).pending = s.pending := by
  simp only [laserAdopt]
  (repeat' split) <;> simp

/-- `nullCycle` changes ssq, lco alone. -/
@[simp] theorem nullCycle_frame (s : State) :
    (nullCycle s).lif = s.lif ∧ (nullCycle s).pvw = s.pvw ∧ (nullCycle s).cpl = s.cpl ∧ (nullCycle s).msq = s.msq ∧
    (nullCycle s).fct = s.fct ∧ (nullCycle s).mct = s.mct ∧ (nullCycle s).ors = s.ors ∧ (nullCycle s).srs = s.srs ∧
    (nullCycle s).ldr = s.ldr ∧ (nullCycle s).pins = s.pins ∧ (nullCycle s).nowMs = s.nowMs ∧
    (nullCycle s).freeCount = s.freeCount ∧ (nullCycle s).pending = s.pending := by
  simp only [nullCycle]
  (repeat' split) <;> simp

/-- `climbBy` changes ssq, lco alone. -/
@[simp] theorem climbBy_frame (d : Int) (s : State) :
    (climbBy d s).lif = s.lif ∧ (climbBy d s).pvw = s.pvw ∧ (climbBy d s).cpl = s.cpl ∧ (climbBy d s).msq = s.msq ∧
    (climbBy d s).fct = s.fct ∧ (climbBy d s).mct = s.mct ∧ (climbBy d s).ors = s.ors ∧ (climbBy d s).srs = s.srs ∧
    (climbBy d s).ldr = s.ldr ∧ (climbBy d s).pins = s.pins ∧ (climbBy d s).nowMs = s.nowMs ∧
    (climbBy d s).freeCount = s.freeCount ∧ (climbBy d s).pending = s.pending := by
  simp [climbBy]

/-- `reportFaults` changes lif, ors, mct, fct, lco, msq, ssq alone. -/
@[simp] theorem reportFaults_frame (n : Nat) (s : State) :
    (reportFaults n s).pvw = s.pvw ∧ (reportFaults n s).cpl = s.cpl ∧ (reportFaults n s).srs = s.srs ∧
    (reportFaults n s).ldr = s.ldr ∧ (reportFaults n s).pins = s.pins ∧ (reportFaults n s).nowMs = s.nowMs ∧
    (reportFaults n s).freeCount = s.freeCount ∧ (reportFaults n s).pending = s.pending := by
  simp only [reportFaults]
  (repeat' split) <;> simp

/-- `reportOutcome` changes lif, ors, mct, fct, lco, msq, ssq, srs alone. -/
@[simp] theorem reportOutcome_frame (st : Stroke) (s : State) :
    (reportOutcome st s).pvw = s.pvw ∧ (reportOutcome st s).cpl = s.cpl ∧ (reportOutcome st s).ldr = s.ldr ∧
    (reportOutcome st s).pins = s.pins ∧ (reportOutcome st s).nowMs = s.nowMs ∧
    (reportOutcome st s).freeCount = s.freeCount ∧ (reportOutcome st s).pending = s.pending := by
  simp only [reportOutcome]
  (repeat' split) <;> simp

/-- `settleLaser` changes ssq, lco alone. -/
@[simp] theorem settleLaser_frame (st : Stroke) (s : State) :
    (settleLaser st s).2.lif = s.lif ∧ (settleLaser st s).2.pvw = s.pvw ∧ (settleLaser st s).2.cpl = s.cpl ∧
    (settleLaser st s).2.msq = s.msq ∧ (settleLaser st s).2.fct = s.fct ∧ (settleLaser st s).2.mct = s.mct ∧
    (settleLaser st s).2.ors = s.ors ∧ (settleLaser st s).2.srs = s.srs ∧ (settleLaser st s).2.ldr = s.ldr ∧
    (settleLaser st s).2.pins = s.pins ∧ (settleLaser st s).2.nowMs = s.nowMs ∧
    (settleLaser st s).2.freeCount = s.freeCount ∧ (settleLaser st s).2.pending = s.pending := by
  simp only [settleLaser]
  (repeat' split) <;> simp

/-- `completeSettle` changes lif, ors, mct, fct, lco, msq, ssq, srs alone. -/
@[simp] theorem completeSettle_frame (st : Stroke) (s : State) :
    (completeSettle st s).pvw = s.pvw ∧ (completeSettle st s).cpl = s.cpl ∧ (completeSettle st s).ldr = s.ldr ∧
    (completeSettle st s).pins = s.pins ∧ (completeSettle st s).nowMs = s.nowMs ∧
    (completeSettle st s).freeCount = s.freeCount ∧ (completeSettle st s).pending = s.pending := by
  simp [completeSettle]

/-- `deliverSample` changes lif, ors, mct, fct, lco, msq, ssq, srs alone. -/
@[simp] theorem deliverSample_frame (tag : Tag) (p : Sample) (s : State) :
    (deliverSample tag p s).pvw = s.pvw ∧ (deliverSample tag p s).cpl = s.cpl ∧ (deliverSample tag p s).ldr = s.ldr ∧
    (deliverSample tag p s).pins = s.pins ∧ (deliverSample tag p s).nowMs = s.nowMs ∧
    (deliverSample tag p s).freeCount = s.freeCount ∧ (deliverSample tag p s).pending = s.pending := by
  simp only [deliverSample]
  (repeat' split) <;> simp

/-- `fireTrigger` changes lif, ors, mct, fct, lco, msq, ssq, srs alone. -/
@[simp] theorem fireTrigger_frame (tag : Tag) (s : State) :
    (fireTrigger tag s).pvw = s.pvw ∧ (fireTrigger tag s).cpl = s.cpl ∧ (fireTrigger tag s).ldr = s.ldr ∧
    (fireTrigger tag s).pins = s.pins ∧ (fireTrigger tag s).nowMs = s.nowMs ∧ (fireTrigger tag s).freeCount = s.freeCount ∧
    (fireTrigger tag s).pending = s.pending := by
  simp only [fireTrigger]
  (repeat' split) <;> simp

/-- `startStroke` changes lif, ors, mct, fct, lco, msq, ssq, srs alone. -/
@[simp] theorem startStroke_frame (k : StrokeKind) (a : Option Int) (s : State) :
    (startStroke k a s).pvw = s.pvw ∧ (startStroke k a s).cpl = s.cpl ∧ (startStroke k a s).ldr = s.ldr ∧
    (startStroke k a s).pins = s.pins ∧ (startStroke k a s).nowMs = s.nowMs ∧ (startStroke k a s).freeCount = s.freeCount ∧
    (startStroke k a s).pending = s.pending := by
  simp [startStroke]

/-- `liftTest` changes ssq alone. -/
@[simp] theorem liftTest_frame (s : State) :
    (liftTest s).lif = s.lif ∧ (liftTest s).pvw = s.pvw ∧ (liftTest s).lco = s.lco ∧ (liftTest s).cpl = s.cpl ∧
    (liftTest s).msq = s.msq ∧ (liftTest s).fct = s.fct ∧ (liftTest s).mct = s.mct ∧ (liftTest s).ors = s.ors ∧
    (liftTest s).srs = s.srs ∧ (liftTest s).ldr = s.ldr ∧ (liftTest s).pins = s.pins ∧ (liftTest s).nowMs = s.nowMs ∧
    (liftTest s).freeCount = s.freeCount ∧ (liftTest s).pending = s.pending := by
  simp only [liftTest]
  (repeat' split) <;> simp

/-- `enterLift` changes ssq alone. -/
@[simp] theorem enterLift_frame (s : State) :
    (enterLift s).lif = s.lif ∧ (enterLift s).pvw = s.pvw ∧ (enterLift s).lco = s.lco ∧ (enterLift s).cpl = s.cpl ∧
    (enterLift s).msq = s.msq ∧ (enterLift s).fct = s.fct ∧ (enterLift s).mct = s.mct ∧ (enterLift s).ors = s.ors ∧
    (enterLift s).srs = s.srs ∧ (enterLift s).ldr = s.ldr ∧ (enterLift s).pins = s.pins ∧ (enterLift s).nowMs = s.nowMs ∧
    (enterLift s).freeCount = s.freeCount ∧ (enterLift s).pending = s.pending := by
  simp only [enterLift]
  (repeat' split) <;> simp

/-- `enterSettle` changes lif, ors, mct, fct, lco, msq, ssq, srs alone. -/
@[simp] theorem enterSettle_frame (u : Stroke → Stroke) (s : State) :
    (enterSettle u s).pvw = s.pvw ∧ (enterSettle u s).cpl = s.cpl ∧ (enterSettle u s).ldr = s.ldr ∧
    (enterSettle u s).pins = s.pins ∧ (enterSettle u s).nowMs = s.nowMs ∧ (enterSettle u s).freeCount = s.freeCount ∧
    (enterSettle u s).pending = s.pending := by
  simp [enterSettle]

/-- `releaseTest` changes lif, ors, mct, fct, lco, msq, ssq, srs alone. -/
@[simp] theorem releaseTest_frame (s : State) :
    (releaseTest s).pvw = s.pvw ∧ (releaseTest s).cpl = s.cpl ∧ (releaseTest s).ldr = s.ldr ∧
    (releaseTest s).pins = s.pins ∧ (releaseTest s).nowMs = s.nowMs ∧ (releaseTest s).freeCount = s.freeCount ∧
    (releaseTest s).pending = s.pending := by
  simp only [releaseTest]
  (repeat' split) <;> simp

/-- `jackTest` changes lif, ors, mct, fct, lco, msq, ssq, srs alone. -/
@[simp] theorem jackTest_frame (s : State) :
    (jackTest s).pvw = s.pvw ∧ (jackTest s).cpl = s.cpl ∧ (jackTest s).ldr = s.ldr ∧ (jackTest s).pins = s.pins ∧
    (jackTest s).nowMs = s.nowMs ∧ (jackTest s).freeCount = s.freeCount ∧ (jackTest s).pending = s.pending := by
  simp only [jackTest]
  (repeat' split) <;> simp

/-- `overpressureTest` changes lif, ors, mct, fct, lco, msq, ssq alone. -/
@[simp] theorem overpressureTest_frame (v : Int) (s : State) :
    (overpressureTest v s).pvw = s.pvw ∧ (overpressureTest v s).cpl = s.cpl ∧ (overpressureTest v s).srs = s.srs ∧
    (overpressureTest v s).ldr = s.ldr ∧ (overpressureTest v s).pins = s.pins ∧ (overpressureTest v s).nowMs = s.nowMs ∧
    (overpressureTest v s).freeCount = s.freeCount ∧ (overpressureTest v s).pending = s.pending := by
  simp only [overpressureTest]
  (repeat' split) <;> simp

/-- `pressurePhase` changes lif, ors, mct, fct, lco, msq, ssq, srs alone. -/
@[simp] theorem pressurePhase_frame (v : Int) (s : State) :
    (pressurePhase v s).pvw = s.pvw ∧ (pressurePhase v s).cpl = s.cpl ∧ (pressurePhase v s).ldr = s.ldr ∧
    (pressurePhase v s).pins = s.pins ∧ (pressurePhase v s).nowMs = s.nowMs ∧
    (pressurePhase v s).freeCount = s.freeCount ∧ (pressurePhase v s).pending = s.pending := by
  simp only [pressurePhase]
  (repeat' split) <;> simp

/-- `pressureResult` changes lif, ors, mct, fct, lco, msq, ssq, srs alone. -/
@[simp] theorem pressureResult_frame (v : Int) (s : State) :
    (pressureResult v s).pvw = s.pvw ∧ (pressureResult v s).cpl = s.cpl ∧ (pressureResult v s).ldr = s.ldr ∧
    (pressureResult v s).pins = s.pins ∧ (pressureResult v s).nowMs = s.nowMs ∧
    (pressureResult v s).freeCount = s.freeCount ∧ (pressureResult v s).pending = s.pending := by
  simp [pressureResult]

/-- `fillTest` changes lif, fct, lco alone. -/
@[simp] theorem fillTest_frame (s : State) :
    (fillTest s).pvw = s.pvw ∧ (fillTest s).cpl = s.cpl ∧ (fillTest s).ssq = s.ssq ∧ (fillTest s).msq = s.msq ∧
    (fillTest s).mct = s.mct ∧ (fillTest s).ors = s.ors ∧ (fillTest s).srs = s.srs ∧ (fillTest s).ldr = s.ldr ∧
    (fillTest s).pins = s.pins ∧ (fillTest s).nowMs = s.nowMs ∧ (fillTest s).freeCount = s.freeCount ∧
    (fillTest s).pending = s.pending := by
  simp only [fillTest]
  (repeat' split) <;> simp

/-- `fillResult` changes lif, fct, lco alone. -/
@[simp] theorem fillResult_frame (v : Int) (s : State) :
    (fillResult v s).pvw = s.pvw ∧ (fillResult v s).cpl = s.cpl ∧ (fillResult v s).ssq = s.ssq ∧
    (fillResult v s).msq = s.msq ∧ (fillResult v s).mct = s.mct ∧ (fillResult v s).ors = s.ors ∧
    (fillResult v s).srs = s.srs ∧ (fillResult v s).ldr = s.ldr ∧ (fillResult v s).pins = s.pins ∧
    (fillResult v s).nowMs = s.nowMs ∧ (fillResult v s).freeCount = s.freeCount ∧ (fillResult v s).pending = s.pending := by
  simp [fillResult]

/-- `senseTest` changes lif, ors, mct, fct, lco, msq, ssq alone. -/
@[simp] theorem senseTest_frame (s : State) :
    (senseTest s).pvw = s.pvw ∧ (senseTest s).cpl = s.cpl ∧ (senseTest s).srs = s.srs ∧ (senseTest s).ldr = s.ldr ∧
    (senseTest s).pins = s.pins ∧ (senseTest s).nowMs = s.nowMs ∧ (senseTest s).freeCount = s.freeCount ∧
    (senseTest s).pending = s.pending := by
  simp only [senseTest]
  (repeat' split) <;> simp

/-- `announceResult` changes lif, ors, mct, fct, lco, msq, ssq, srs alone. -/
@[simp] theorem announceResult_frame (c : Channel) (v : Int) (s : State) :
    (announceResult c v s).pvw = s.pvw ∧ (announceResult c v s).cpl = s.cpl ∧ (announceResult c v s).ldr = s.ldr ∧
    (announceResult c v s).pins = s.pins ∧ (announceResult c v s).nowMs = s.nowMs ∧
    (announceResult c v s).freeCount = s.freeCount ∧ (announceResult c v s).pending = s.pending := by
  simp only [announceResult]
  (repeat' split) <;> simp

/-- `announceChange` changes lif, ors, mct, fct, lco, msq, ssq, srs alone. -/
@[simp] theorem announceChange_frame (c : Channel) (s : State) :
    (announceChange c s).pvw = s.pvw ∧ (announceChange c s).cpl = s.cpl ∧ (announceChange c s).ldr = s.ldr ∧
    (announceChange c s).pins = s.pins ∧ (announceChange c s).nowMs = s.nowMs ∧
    (announceChange c s).freeCount = s.freeCount ∧ (announceChange c s).pending = s.pending := by
  simp only [announceChange]
  (repeat' split) <;> simp

/-- `announce` changes lif, ors, mct, fct, lco, msq, ssq, srs alone. -/
@[simp] theorem announce_frame (c : Channel) (raw : Nat) (e : ChanEntry) (s : State) :
    (announce c raw e s).pvw = s.pvw ∧ (announce c raw e s).cpl = s.cpl ∧ (announce c raw e s).ldr = s.ldr ∧
    (announce c raw e s).pins = s.pins ∧ (announce c raw e s).nowMs = s.nowMs ∧
    (announce c raw e s).freeCount = s.freeCount ∧ (announce c raw e s).pending = s.pending := by
  simp only [announce]
  (repeat' split) <;> simp

/-- `finishChain` changes lif, ors, mct, fct, lco, msq, ssq, srs alone. -/
@[simp] theorem finishChain_frame (s : State) :
    (finishChain s).pvw = s.pvw ∧ (finishChain s).cpl = s.cpl ∧ (finishChain s).ldr = s.ldr ∧
    (finishChain s).pins = s.pins ∧ (finishChain s).nowMs = s.nowMs ∧ (finishChain s).freeCount = s.freeCount ∧
    (finishChain s).pending = s.pending := by
  simp only [finishChain]
  (repeat' split) <;> simp

/-- `completeConversion` changes lif, ors, mct, fct, lco, msq, ssq, srs alone. -/
@[simp] theorem completeConversion_frame (raw : Nat) (s : State) :
    (completeConversion raw s).pvw = s.pvw ∧ (completeConversion raw s).cpl = s.cpl ∧
    (completeConversion raw s).ldr = s.ldr ∧ (completeConversion raw s).pins = s.pins ∧
    (completeConversion raw s).nowMs = s.nowMs ∧ (completeConversion raw s).freeCount = s.freeCount ∧
    (completeConversion raw s).pending = s.pending := by
  simp [completeConversion]

end Sys2Proof.Machine
end

