-- ==== Sys2Proof/Laws/Orders.lean ====
section
/-! SUPPORT. The frames of what the orders do to the state: which parts of the state each of them leaves as they are. -/

namespace Sys2Proof.Machine

/-- `endAmend` changes ors alone. -/
@[simp] theorem endAmend_frame (code : Byte) (s : State) :
    (endAmend code s).lif = s.lif ∧ (endAmend code s).pvw = s.pvw ∧ (endAmend code s).lco = s.lco ∧
    (endAmend code s).cpl = s.cpl ∧ (endAmend code s).ssq = s.ssq ∧ (endAmend code s).msq = s.msq ∧
    (endAmend code s).fct = s.fct ∧ (endAmend code s).mct = s.mct ∧ (endAmend code s).srs = s.srs ∧
    (endAmend code s).ldr = s.ldr ∧ (endAmend code s).pins = s.pins ∧ (endAmend code s).nowMs = s.nowMs ∧
    (endAmend code s).freeCount = s.freeCount ∧ (endAmend code s).pending = s.pending := by
  simp only [endAmend]
  (repeat' split) <;> simp

/-- `freeGate` changes lif, fct, lco alone. -/
@[simp] theorem freeGate_frame (s : State) :
    (freeGate s).pvw = s.pvw ∧ (freeGate s).cpl = s.cpl ∧ (freeGate s).ssq = s.ssq ∧ (freeGate s).msq = s.msq ∧
    (freeGate s).mct = s.mct ∧ (freeGate s).ors = s.ors ∧ (freeGate s).srs = s.srs ∧ (freeGate s).ldr = s.ldr ∧
    (freeGate s).pins = s.pins ∧ (freeGate s).nowMs = s.nowMs ∧ (freeGate s).freeCount = s.freeCount ∧
    (freeGate s).pending = s.pending := by
  simp only [freeGate]
  (repeat' split) <;> simp

/-- `clearSteps` changes lif, fct, lco, mct, msq alone. -/
@[simp] theorem clearSteps_frame (s : State) :
    (clearSteps s).pvw = s.pvw ∧ (clearSteps s).cpl = s.cpl ∧ (clearSteps s).ssq = s.ssq ∧ (clearSteps s).ors = s.ors ∧
    (clearSteps s).srs = s.srs ∧ (clearSteps s).ldr = s.ldr ∧ (clearSteps s).pins = s.pins ∧
    (clearSteps s).nowMs = s.nowMs ∧ (clearSteps s).freeCount = s.freeCount ∧ (clearSteps s).pending = s.pending := by
  simp [clearSteps]

/-- `clearTaken` changes lif, fct, lco, mct, msq, ors alone. -/
@[simp] theorem clearTaken_frame (s : State) :
    (clearTaken s).pvw = s.pvw ∧ (clearTaken s).cpl = s.cpl ∧ (clearTaken s).ssq = s.ssq ∧ (clearTaken s).srs = s.srs ∧
    (clearTaken s).ldr = s.ldr ∧ (clearTaken s).pins = s.pins ∧ (clearTaken s).nowMs = s.nowMs ∧
    (clearTaken s).freeCount = s.freeCount ∧ (clearTaken s).pending = s.pending := by
  simp only [clearTaken]
  (repeat' split) <;> simp

/-- `climbTaken` changes lif, ors, mct, fct, lco alone. -/
@[simp] theorem climbTaken_frame (s : State) :
    (climbTaken s).pvw = s.pvw ∧ (climbTaken s).cpl = s.cpl ∧ (climbTaken s).ssq = s.ssq ∧ (climbTaken s).msq = s.msq ∧
    (climbTaken s).srs = s.srs ∧ (climbTaken s).ldr = s.ldr ∧ (climbTaken s).pins = s.pins ∧
    (climbTaken s).nowMs = s.nowMs ∧ (climbTaken s).freeCount = s.freeCount ∧ (climbTaken s).pending = s.pending := by
  simp [climbTaken]

/-- `setupTaken` changes lif, ors, mct, fct, lco alone. -/
@[simp] theorem setupTaken_frame (s : State) :
    (setupTaken s).pvw = s.pvw ∧ (setupTaken s).cpl = s.cpl ∧ (setupTaken s).ssq = s.ssq ∧ (setupTaken s).msq = s.msq ∧
    (setupTaken s).srs = s.srs ∧ (setupTaken s).ldr = s.ldr ∧ (setupTaken s).pins = s.pins ∧
    (setupTaken s).nowMs = s.nowMs ∧ (setupTaken s).freeCount = s.freeCount ∧ (setupTaken s).pending = s.pending := by
  simp [setupTaken]

/-- `planeTo` changes ssq alone. -/
@[simp] theorem planeTo_frame (p : Option Int) (s : State) :
    (planeTo p s).lif = s.lif ∧ (planeTo p s).pvw = s.pvw ∧ (planeTo p s).lco = s.lco ∧ (planeTo p s).cpl = s.cpl ∧
    (planeTo p s).msq = s.msq ∧ (planeTo p s).fct = s.fct ∧ (planeTo p s).mct = s.mct ∧ (planeTo p s).ors = s.ors ∧
    (planeTo p s).srs = s.srs ∧ (planeTo p s).ldr = s.ldr ∧ (planeTo p s).pins = s.pins ∧ (planeTo p s).nowMs = s.nowMs ∧
    (planeTo p s).freeCount = s.freeCount ∧ (planeTo p s).pending = s.pending := by
  simp [planeTo]

/-- `setCursor` changes ors alone. -/
@[simp] theorem setCursor_frame (k : Cursor) (s : State) :
    (setCursor k s).lif = s.lif ∧ (setCursor k s).pvw = s.pvw ∧ (setCursor k s).lco = s.lco ∧ (setCursor k s).cpl = s.cpl ∧
    (setCursor k s).ssq = s.ssq ∧ (setCursor k s).msq = s.msq ∧ (setCursor k s).fct = s.fct ∧ (setCursor k s).mct = s.mct ∧
    (setCursor k s).srs = s.srs ∧ (setCursor k s).ldr = s.ldr ∧ (setCursor k s).pins = s.pins ∧
    (setCursor k s).nowMs = s.nowMs ∧ (setCursor k s).freeCount = s.freeCount ∧ (setCursor k s).pending = s.pending := by
  simp [setCursor]

/-- `stopOutputs` changes ssq, fct, msq, lco, ldr alone. -/
@[simp] theorem stopOutputs_frame (s : State) :
    (stopOutputs s).lif = s.lif ∧ (stopOutputs s).pvw = s.pvw ∧ (stopOutputs s).cpl = s.cpl ∧ (stopOutputs s).mct = s.mct ∧
    (stopOutputs s).ors = s.ors ∧ (stopOutputs s).srs = s.srs ∧ (stopOutputs s).pins = s.pins ∧
    (stopOutputs s).nowMs = s.nowMs ∧ (stopOutputs s).freeCount = s.freeCount ∧ (stopOutputs s).pending = s.pending := by
  simp [stopOutputs]

/-- `saveArea` changes ssq, fct, msq, lco, ldr, srs alone. -/
@[simp] theorem saveArea_frame (b : Bool) (s : State) :
    (saveArea b s).lif = s.lif ∧ (saveArea b s).pvw = s.pvw ∧ (saveArea b s).cpl = s.cpl ∧ (saveArea b s).mct = s.mct ∧
    (saveArea b s).ors = s.ors ∧ (saveArea b s).pins = s.pins ∧ (saveArea b s).nowMs = s.nowMs ∧
    (saveArea b s).freeCount = s.freeCount ∧ (saveArea b s).pending = s.pending := by
  simp [saveArea]

/-- `tearWrite` changes srs, freeCount alone. -/
@[simp] theorem tearWrite_frame (s : State) :
    (tearWrite s).lif = s.lif ∧ (tearWrite s).pvw = s.pvw ∧ (tearWrite s).lco = s.lco ∧ (tearWrite s).cpl = s.cpl ∧
    (tearWrite s).ssq = s.ssq ∧ (tearWrite s).msq = s.msq ∧ (tearWrite s).fct = s.fct ∧ (tearWrite s).mct = s.mct ∧
    (tearWrite s).ors = s.ors ∧ (tearWrite s).ldr = s.ldr ∧ (tearWrite s).pins = s.pins ∧ (tearWrite s).nowMs = s.nowMs ∧
    (tearWrite s).pending = s.pending := by
  simp only [tearWrite]
  (repeat' split) <;> simp

/-- `stopNode` changes srs alone. -/
@[simp] theorem stopNode_frame (s : State) :
    (stopNode s).lif = s.lif ∧ (stopNode s).pvw = s.pvw ∧ (stopNode s).lco = s.lco ∧ (stopNode s).cpl = s.cpl ∧
    (stopNode s).ssq = s.ssq ∧ (stopNode s).msq = s.msq ∧ (stopNode s).fct = s.fct ∧ (stopNode s).mct = s.mct ∧
    (stopNode s).ors = s.ors ∧ (stopNode s).ldr = s.ldr ∧ (stopNode s).pins = s.pins ∧ (stopNode s).nowMs = s.nowMs ∧
    (stopNode s).freeCount = s.freeCount ∧ (stopNode s).pending = s.pending := by
  simp [stopNode]

/-- `clearRestartMark` changes srs alone. -/
@[simp] theorem clearRestartMark_frame (s : State) :
    (clearRestartMark s).lif = s.lif ∧ (clearRestartMark s).pvw = s.pvw ∧ (clearRestartMark s).lco = s.lco ∧
    (clearRestartMark s).cpl = s.cpl ∧ (clearRestartMark s).ssq = s.ssq ∧ (clearRestartMark s).msq = s.msq ∧
    (clearRestartMark s).fct = s.fct ∧ (clearRestartMark s).mct = s.mct ∧ (clearRestartMark s).ors = s.ors ∧
    (clearRestartMark s).ldr = s.ldr ∧ (clearRestartMark s).pins = s.pins ∧ (clearRestartMark s).nowMs = s.nowMs ∧
    (clearRestartMark s).freeCount = s.freeCount ∧ (clearRestartMark s).pending = s.pending := by
  simp [clearRestartMark]

/-- `failedSave` changes ssq, fct, msq, lco, ldr, srs alone. -/
@[simp] theorem failedSave_frame (s : State) :
    (failedSave s).lif = s.lif ∧ (failedSave s).pvw = s.pvw ∧ (failedSave s).cpl = s.cpl ∧ (failedSave s).mct = s.mct ∧
    (failedSave s).ors = s.ors ∧ (failedSave s).pins = s.pins ∧ (failedSave s).nowMs = s.nowMs ∧
    (failedSave s).freeCount = s.freeCount ∧ (failedSave s).pending = s.pending := by
  simp [failedSave]

/-- `powerFailed` changes ssq, fct, msq, lco, ldr, srs, freeCount alone. -/
@[simp] theorem powerFailed_frame (b : Bool) (s : State) :
    (powerFailed b s).lif = s.lif ∧ (powerFailed b s).pvw = s.pvw ∧ (powerFailed b s).cpl = s.cpl ∧
    (powerFailed b s).mct = s.mct ∧ (powerFailed b s).ors = s.ors ∧ (powerFailed b s).pins = s.pins ∧
    (powerFailed b s).nowMs = s.nowMs ∧ (powerFailed b s).pending = s.pending := by
  simp only [powerFailed]
  (repeat' split) <;> simp

/-- `storeReported` changes lif, ors alone. -/
@[simp] theorem storeReported_frame (s : State) :
    (storeReported s).pvw = s.pvw ∧ (storeReported s).lco = s.lco ∧ (storeReported s).cpl = s.cpl ∧
    (storeReported s).ssq = s.ssq ∧ (storeReported s).msq = s.msq ∧ (storeReported s).fct = s.fct ∧
    (storeReported s).mct = s.mct ∧ (storeReported s).srs = s.srs ∧ (storeReported s).ldr = s.ldr ∧
    (storeReported s).pins = s.pins ∧ (storeReported s).nowMs = s.nowMs ∧ (storeReported s).freeCount = s.freeCount ∧
    (storeReported s).pending = s.pending := by
  simp only [storeReported]
  (repeat' split) <;> simp

/-- `writeDone` changes lif, ors, srs alone. -/
@[simp] theorem writeDone_frame (w : BlockWrite) (s : State) :
    (writeDone w s).pvw = s.pvw ∧ (writeDone w s).lco = s.lco ∧ (writeDone w s).cpl = s.cpl ∧ (writeDone w s).ssq = s.ssq ∧
    (writeDone w s).msq = s.msq ∧ (writeDone w s).fct = s.fct ∧ (writeDone w s).mct = s.mct ∧ (writeDone w s).ldr = s.ldr ∧
    (writeDone w s).pins = s.pins ∧ (writeDone w s).nowMs = s.nowMs ∧ (writeDone w s).freeCount = s.freeCount ∧
    (writeDone w s).pending = s.pending := by
  simp only [writeDone]
  (repeat' split) <;> simp

/-- `restartTaken` changes ssq, fct, msq, lco, ldr, srs, ors alone. -/
@[simp] theorem restartTaken_frame (s : State) :
    (restartTaken s).lif = s.lif ∧ (restartTaken s).pvw = s.pvw ∧ (restartTaken s).cpl = s.cpl ∧
    (restartTaken s).mct = s.mct ∧ (restartTaken s).pins = s.pins ∧ (restartTaken s).nowMs = s.nowMs ∧
    (restartTaken s).freeCount = s.freeCount ∧ (restartTaken s).pending = s.pending := by
  simp [restartTaken]

/-- `restartWithoutReply` changes srs, and ORS's restart-waiting mark alone. -/
@[simp] theorem restartWithoutReply_frame (s : State) :
    (restartWithoutReply s).lif = s.lif ∧ (restartWithoutReply s).pvw = s.pvw ∧ (restartWithoutReply s).lco = s.lco ∧
    (restartWithoutReply s).cpl = s.cpl ∧ (restartWithoutReply s).ssq = s.ssq ∧ (restartWithoutReply s).msq = s.msq ∧
    (restartWithoutReply s).fct = s.fct ∧ (restartWithoutReply s).mct = s.mct ∧ (restartWithoutReply s).ors.cursor = s.ors.cursor ∧
    (restartWithoutReply s).ors.amend = s.ors.amend ∧ (restartWithoutReply s).ors.storeWaiting = s.ors.storeWaiting ∧
    (restartWithoutReply s).ldr = s.ldr ∧ (restartWithoutReply s).pins = s.pins ∧ (restartWithoutReply s).nowMs = s.nowMs ∧
    (restartWithoutReply s).freeCount = s.freeCount ∧ (restartWithoutReply s).pending = s.pending := by
  simp only [restartWithoutReply]
  (repeat' split) <;> simp

end Sys2Proof.Machine
end

