-- ==== Sys2Proof/Laws/Events.lean ====
section
/-! SUPPORT. The frames of what the events do to the state: which parts of the state each of them leaves as they are. -/

namespace Sys2Proof.Machine

/-- `identityReport` changes lif, ors, mct, fct, lco, msq, ssq, pvw alone. -/
@[simp] theorem identityReport_frame (v : Verdict) (s : State) :
    (identityReport v s).cpl = s.cpl ∧ (identityReport v s).srs = s.srs ∧ (identityReport v s).ldr = s.ldr ∧
    (identityReport v s).pins = s.pins ∧ (identityReport v s).nowMs = s.nowMs ∧
    (identityReport v s).freeCount = s.freeCount ∧ (identityReport v s).pending = s.pending := by
  simp only [identityReport]
  (repeat' split) <;> simp

/-- `muteEnded` changes lif, ors, mct, fct, lco alone. -/
@[simp] theorem muteEnded_frame (s : State) :
    (muteEnded s).pvw = s.pvw ∧ (muteEnded s).cpl = s.cpl ∧ (muteEnded s).ssq = s.ssq ∧ (muteEnded s).msq = s.msq ∧
    (muteEnded s).srs = s.srs ∧ (muteEnded s).ldr = s.ldr ∧ (muteEnded s).pins = s.pins ∧ (muteEnded s).nowMs = s.nowMs ∧
    (muteEnded s).freeCount = s.freeCount ∧ (muteEnded s).pending = s.pending := by
  simp only [muteEnded]
  (repeat' split) <;> simp

/-- `leaveIfDue` changes lif, ors, mct, fct, lco alone. -/
@[simp] theorem leaveIfDue_frame (s : State) :
    (leaveIfDue s).pvw = s.pvw ∧ (leaveIfDue s).cpl = s.cpl ∧ (leaveIfDue s).ssq = s.ssq ∧ (leaveIfDue s).msq = s.msq ∧
    (leaveIfDue s).srs = s.srs ∧ (leaveIfDue s).ldr = s.ldr ∧ (leaveIfDue s).pins = s.pins ∧
    (leaveIfDue s).nowMs = s.nowMs ∧ (leaveIfDue s).freeCount = s.freeCount ∧ (leaveIfDue s).pending = s.pending := by
  simp only [leaveIfDue]
  (repeat' split) <;> simp

/-- `receivePost` changes lif, ors, mct, fct, lco, msq, ssq, pvw alone. -/
@[simp] theorem receivePost_frame (v : Verdict) (s : State) :
    (receivePost v s).cpl = s.cpl ∧ (receivePost v s).srs = s.srs ∧ (receivePost v s).ldr = s.ldr ∧
    (receivePost v s).pins = s.pins ∧ (receivePost v s).nowMs = s.nowMs ∧ (receivePost v s).freeCount = s.freeCount ∧
    (receivePost v s).pending = s.pending := by
  simp [receivePost]

/-- `hearPost` leaves everything but LIF, PVW and what an identity clash or the end of MUTE reaches. -/
@[simp] theorem hearPost_frame (v : Verdict) (s : State) :
    (hearPost v s).cpl = s.cpl ∧ (hearPost v s).srs = s.srs ∧ (hearPost v s).ldr = s.ldr ∧
    (hearPost v s).pins = s.pins ∧ (hearPost v s).nowMs = s.nowMs ∧ (hearPost v s).freeCount = s.freeCount ∧
    (hearPost v s).pending = s.pending := by
  unfold hearPost
  split <;> simp

/-- `claimFailed` changes lif, fct alone. -/
@[simp] theorem claimFailed_frame (s : State) :
    (claimFailed s).pvw = s.pvw ∧ (claimFailed s).lco = s.lco ∧ (claimFailed s).cpl = s.cpl ∧ (claimFailed s).ssq = s.ssq ∧
    (claimFailed s).msq = s.msq ∧ (claimFailed s).mct = s.mct ∧ (claimFailed s).ors = s.ors ∧ (claimFailed s).srs = s.srs ∧
    (claimFailed s).ldr = s.ldr ∧ (claimFailed s).pins = s.pins ∧ (claimFailed s).nowMs = s.nowMs ∧
    (claimFailed s).freeCount = s.freeCount ∧ (claimFailed s).pending = s.pending := by
  simp only [claimFailed]
  (repeat' split) <;> simp

/-- `muteReports` changes lif, ors, mct, fct, lco, msq, ssq, srs alone. -/
@[simp] theorem muteReports_frame (l : Lif) (s : State) :
    (muteReports l s).pvw = s.pvw ∧ (muteReports l s).cpl = s.cpl ∧ (muteReports l s).ldr = s.ldr ∧
    (muteReports l s).pins = s.pins ∧ (muteReports l s).nowMs = s.nowMs ∧ (muteReports l s).freeCount = s.freeCount ∧
    (muteReports l s).pending = s.pending := by
  simp only [muteReports]
  (repeat' split) <;> simp

/-- `afterGarble` changes lif, ors, mct, fct, lco, msq, ssq, srs alone. -/
@[simp] theorem afterGarble_frame (l : Lif) (s : State) :
    (afterGarble l s).pvw = s.pvw ∧ (afterGarble l s).cpl = s.cpl ∧ (afterGarble l s).ldr = s.ldr ∧
    (afterGarble l s).pins = s.pins ∧ (afterGarble l s).nowMs = s.nowMs ∧ (afterGarble l s).freeCount = s.freeCount ∧
    (afterGarble l s).pending = s.pending := by
  simp only [afterGarble]
  (repeat' split) <;> simp

/-- `claimSent` changes fct alone. -/
@[simp] theorem claimSent_frame (n : Nat) (s : State) :
    (claimSent n s).lif = s.lif ∧ (claimSent n s).pvw = s.pvw ∧ (claimSent n s).lco = s.lco ∧ (claimSent n s).cpl = s.cpl ∧
    (claimSent n s).ssq = s.ssq ∧ (claimSent n s).msq = s.msq ∧ (claimSent n s).mct = s.mct ∧ (claimSent n s).ors = s.ors ∧
    (claimSent n s).srs = s.srs ∧ (claimSent n s).ldr = s.ldr ∧ (claimSent n s).pins = s.pins ∧
    (claimSent n s).nowMs = s.nowMs ∧ (claimSent n s).freeCount = s.freeCount ∧ (claimSent n s).pending = s.pending := by
  simp only [claimSent]
  (repeat' split) <;> simp

/-- `haltSent` changes mct alone. -/
@[simp] theorem haltSent_frame (s : State) :
    (haltSent s).lif = s.lif ∧ (haltSent s).pvw = s.pvw ∧ (haltSent s).lco = s.lco ∧ (haltSent s).cpl = s.cpl ∧
    (haltSent s).ssq = s.ssq ∧ (haltSent s).msq = s.msq ∧ (haltSent s).fct = s.fct ∧ (haltSent s).ors = s.ors ∧
    (haltSent s).srs = s.srs ∧ (haltSent s).ldr = s.ldr ∧ (haltSent s).pins = s.pins ∧ (haltSent s).nowMs = s.nowMs ∧
    (haltSent s).freeCount = s.freeCount ∧ (haltSent s).pending = s.pending := by
  simp only [haltSent]
  (repeat' split) <;> simp

/-- `reportSent` changes fct, mct, srs, and ORS's restart-waiting mark alone. -/
@[simp] theorem reportSent_frame (b : PostBody) (s : State) :
    (reportSent b s).lif = s.lif ∧ (reportSent b s).pvw = s.pvw ∧ (reportSent b s).lco = s.lco ∧
    (reportSent b s).cpl = s.cpl ∧ (reportSent b s).ssq = s.ssq ∧ (reportSent b s).msq = s.msq ∧
    (reportSent b s).ors.cursor = s.ors.cursor ∧ (reportSent b s).ors.amend = s.ors.amend ∧
    (reportSent b s).ors.storeWaiting = s.ors.storeWaiting ∧ (reportSent b s).ldr = s.ldr ∧ (reportSent b s).pins = s.pins ∧
    (reportSent b s).nowMs = s.nowMs ∧ (reportSent b s).freeCount = s.freeCount ∧ (reportSent b s).pending = s.pending := by
  simp only [reportSent]
  (repeat' split) <;> simp

/-- `setPeers` changes pvw alone. -/
@[simp] theorem setPeers_frame (t : List Peer) (s : State) :
    (setPeers t s).lif = s.lif ∧ (setPeers t s).lco = s.lco ∧ (setPeers t s).cpl = s.cpl ∧ (setPeers t s).ssq = s.ssq ∧
    (setPeers t s).msq = s.msq ∧ (setPeers t s).fct = s.fct ∧ (setPeers t s).mct = s.mct ∧ (setPeers t s).ors = s.ors ∧
    (setPeers t s).srs = s.srs ∧ (setPeers t s).ldr = s.ldr ∧ (setPeers t s).pins = s.pins ∧
    (setPeers t s).nowMs = s.nowMs ∧ (setPeers t s).freeCount = s.freeCount ∧ (setPeers t s).pending = s.pending := by
  simp [setPeers]

/-- `updatePeer` changes lif, ors, mct, fct, lco, msq, ssq, pvw alone. -/
@[simp] theorem updatePeer_frame (e e' : Peer) (s : State) :
    (updatePeer e e' s).cpl = s.cpl ∧ (updatePeer e e' s).srs = s.srs ∧ (updatePeer e e' s).ldr = s.ldr ∧
    (updatePeer e e' s).pins = s.pins ∧ (updatePeer e e' s).nowMs = s.nowMs ∧ (updatePeer e e' s).freeCount = s.freeCount ∧
    (updatePeer e e' s).pending = s.pending := by
  simp [updatePeer]

/-- `createPeer` changes lif, ors, mct, fct, lco, msq, ssq, pvw alone. -/
@[simp] theorem createPeer_frame (n : Nat) (p : LevelPost) (s : State) :
    (createPeer n p s).cpl = s.cpl ∧ (createPeer n p s).srs = s.srs ∧ (createPeer n p s).ldr = s.ldr ∧
    (createPeer n p s).pins = s.pins ∧ (createPeer n p s).nowMs = s.nowMs ∧ (createPeer n p s).freeCount = s.freeCount ∧
    (createPeer n p s).pending = s.pending := by
  simp only [createPeer]
  (repeat' split) <;> simp

/-- `takeLevel` changes lif, ors, mct, fct, lco, msq, ssq, pvw alone. -/
@[simp] theorem takeLevel_frame (n : Nat) (p : LevelPost) (s : State) :
    (takeLevel n p s).cpl = s.cpl ∧ (takeLevel n p s).srs = s.srs ∧ (takeLevel n p s).ldr = s.ldr ∧
    (takeLevel n p s).pins = s.pins ∧ (takeLevel n p s).nowMs = s.nowMs ∧ (takeLevel n p s).freeCount = s.freeCount ∧
    (takeLevel n p s).pending = s.pending := by
  simp only [takeLevel]
  (repeat' split) <;> simp

/-- `takeClaim` changes lif, fct, lco, pvw alone. -/
@[simp] theorem takeClaim_frame (n : Nat) (p : ClaimPost) (s : State) :
    (takeClaim n p s).cpl = s.cpl ∧ (takeClaim n p s).ssq = s.ssq ∧ (takeClaim n p s).msq = s.msq ∧
    (takeClaim n p s).mct = s.mct ∧ (takeClaim n p s).ors = s.ors ∧ (takeClaim n p s).srs = s.srs ∧
    (takeClaim n p s).ldr = s.ldr ∧ (takeClaim n p s).pins = s.pins ∧ (takeClaim n p s).nowMs = s.nowMs ∧
    (takeClaim n p s).freeCount = s.freeCount ∧ (takeClaim n p s).pending = s.pending := by
  simp only [takeClaim]
  (repeat' split) <;> simp

/-- `takeGate` changes lif, ors, mct, fct, lco, msq, ssq, pvw alone. -/
@[simp] theorem takeGate_frame (n : Nat) (p : GatePost) (s : State) :
    (takeGate n p s).cpl = s.cpl ∧ (takeGate n p s).srs = s.srs ∧ (takeGate n p s).ldr = s.ldr ∧
    (takeGate n p s).pins = s.pins ∧ (takeGate n p s).nowMs = s.nowMs ∧ (takeGate n p s).freeCount = s.freeCount ∧
    (takeGate n p s).pending = s.pending := by
  simp only [takeGate]
  (repeat' split) <;> simp

/-- `takeHalt` changes lif, ors, mct, fct, lco, msq, ssq alone. -/
@[simp] theorem takeHalt_frame (n : Nat) (p : HaltPost) (s : State) :
    (takeHalt n p s).pvw = s.pvw ∧ (takeHalt n p s).cpl = s.cpl ∧ (takeHalt n p s).srs = s.srs ∧
    (takeHalt n p s).ldr = s.ldr ∧ (takeHalt n p s).pins = s.pins ∧ (takeHalt n p s).nowMs = s.nowMs ∧
    (takeHalt n p s).freeCount = s.freeCount ∧ (takeHalt n p s).pending = s.pending := by
  simp only [takeHalt]
  (repeat' split) <;> simp

/-- `dropPeer` changes lif, ors, mct, fct, lco, msq, ssq, pvw alone. -/
@[simp] theorem dropPeer_frame (e : Peer) (s : State) :
    (dropPeer e s).cpl = s.cpl ∧ (dropPeer e s).srs = s.srs ∧ (dropPeer e s).ldr = s.ldr ∧ (dropPeer e s).pins = s.pins ∧
    (dropPeer e s).nowMs = s.nowMs ∧ (dropPeer e s).freeCount = s.freeCount ∧ (dropPeer e s).pending = s.pending := by
  simp [dropPeer]

/-- `jamGate` changes lif, fct, lco alone. -/
@[simp] theorem jamGate_frame (s : State) :
    (jamGate s).pvw = s.pvw ∧ (jamGate s).cpl = s.cpl ∧ (jamGate s).ssq = s.ssq ∧ (jamGate s).msq = s.msq ∧
    (jamGate s).mct = s.mct ∧ (jamGate s).ors = s.ors ∧ (jamGate s).srs = s.srs ∧ (jamGate s).ldr = s.ldr ∧
    (jamGate s).pins = s.pins ∧ (jamGate s).nowMs = s.nowMs ∧ (jamGate s).freeCount = s.freeCount ∧
    (jamGate s).pending = s.pending := by
  simp [jamGate]

/-- `decideClaim` changes lif, fct, lco alone. -/
@[simp] theorem decideClaim_frame (c : OwnClaim) (s : State) :
    (decideClaim c s).pvw = s.pvw ∧ (decideClaim c s).cpl = s.cpl ∧ (decideClaim c s).ssq = s.ssq ∧
    (decideClaim c s).msq = s.msq ∧ (decideClaim c s).mct = s.mct ∧ (decideClaim c s).ors = s.ors ∧
    (decideClaim c s).srs = s.srs ∧ (decideClaim c s).ldr = s.ldr ∧ (decideClaim c s).pins = s.pins ∧
    (decideClaim c s).nowMs = s.nowMs ∧ (decideClaim c s).freeCount = s.freeCount ∧ (decideClaim c s).pending = s.pending := by
  simp only [decideClaim]
  (repeat' split) <;> simp

/-- `pourSecond` changes lif, fct, lco alone. -/
@[simp] theorem pourSecond_frame (s : State) :
    (pourSecond s).pvw = s.pvw ∧ (pourSecond s).cpl = s.cpl ∧ (pourSecond s).ssq = s.ssq ∧ (pourSecond s).msq = s.msq ∧
    (pourSecond s).mct = s.mct ∧ (pourSecond s).ors = s.ors ∧ (pourSecond s).srs = s.srs ∧ (pourSecond s).ldr = s.ldr ∧
    (pourSecond s).pins = s.pins ∧ (pourSecond s).nowMs = s.nowMs ∧ (pourSecond s).freeCount = s.freeCount ∧
    (pourSecond s).pending = s.pending := by
  simp only [pourSecond]
  (repeat' split) <;> simp

/-- `estopOn` changes lif, ors, mct, fct, lco, msq, ssq alone. -/
@[simp] theorem estopOn_frame (s : State) :
    (estopOn s).pvw = s.pvw ∧ (estopOn s).cpl = s.cpl ∧ (estopOn s).srs = s.srs ∧ (estopOn s).ldr = s.ldr ∧
    (estopOn s).pins = s.pins ∧ (estopOn s).nowMs = s.nowMs ∧ (estopOn s).freeCount = s.freeCount ∧
    (estopOn s).pending = s.pending := by
  simp [estopOn]

/-- `keyTo` changes lif, ors, mct, fct, lco, msq, ssq alone. -/
@[simp] theorem keyTo_frame (p : KeyPos) (s : State) :
    (keyTo p s).pvw = s.pvw ∧ (keyTo p s).cpl = s.cpl ∧ (keyTo p s).srs = s.srs ∧ (keyTo p s).ldr = s.ldr ∧
    (keyTo p s).pins = s.pins ∧ (keyTo p s).nowMs = s.nowMs ∧ (keyTo p s).freeCount = s.freeCount ∧
    (keyTo p s).pending = s.pending := by
  simp only [keyTo]
  (repeat' split) <;> simp

/-- `skipExpiry` changes cpl alone. -/
@[simp] theorem skipExpiry_frame (s : State) :
    (skipExpiry s).lif = s.lif ∧ (skipExpiry s).pvw = s.pvw ∧ (skipExpiry s).lco = s.lco ∧ (skipExpiry s).ssq = s.ssq ∧
    (skipExpiry s).msq = s.msq ∧ (skipExpiry s).fct = s.fct ∧ (skipExpiry s).mct = s.mct ∧ (skipExpiry s).ors = s.ors ∧
    (skipExpiry s).srs = s.srs ∧ (skipExpiry s).ldr = s.ldr ∧ (skipExpiry s).pins = s.pins ∧
    (skipExpiry s).nowMs = s.nowMs ∧ (skipExpiry s).freeCount = s.freeCount ∧ (skipExpiry s).pending = s.pending := by
  simp [skipExpiry]

/-- `applySpread` changes lif, ors, mct, fct, lco, msq, ssq alone. -/
@[simp] theorem applySpread_frame (x : Option Bool) (s : State) :
    (applySpread x s).pvw = s.pvw ∧ (applySpread x s).cpl = s.cpl ∧ (applySpread x s).srs = s.srs ∧
    (applySpread x s).ldr = s.ldr ∧ (applySpread x s).pins = s.pins ∧ (applySpread x s).nowMs = s.nowMs ∧
    (applySpread x s).freeCount = s.freeCount ∧ (applySpread x s).pending = s.pending := by
  simp only [applySpread]
  (repeat' split) <;> simp

/-- `handAllowance` changes lif, ors, mct, fct, lco, msq, ssq, srs alone. -/
@[simp] theorem handAllowance_frame (r : CplRecord) (s : State) :
    (handAllowance r s).pvw = s.pvw ∧ (handAllowance r s).cpl = s.cpl ∧ (handAllowance r s).ldr = s.ldr ∧
    (handAllowance r s).pins = s.pins ∧ (handAllowance r s).nowMs = s.nowMs ∧ (handAllowance r s).freeCount = s.freeCount ∧
    (handAllowance r s).pending = s.pending := by
  simp only [handAllowance]
  (repeat' split) <;> simp

/-- `computeExpiry` changes lif, ors, mct, fct, lco, msq, ssq, srs, cpl alone. -/
@[simp] theorem computeExpiry_frame (r : CplRecord) (s : State) :
    (computeExpiry r s).pvw = s.pvw ∧ (computeExpiry r s).ldr = s.ldr ∧ (computeExpiry r s).pins = s.pins ∧
    (computeExpiry r s).nowMs = s.nowMs ∧ (computeExpiry r s).freeCount = s.freeCount ∧
    (computeExpiry r s).pending = s.pending := by
  simp [computeExpiry]

/-- `fireTop` changes lif, ors, mct, fct, lco, msq, ssq, srs alone. -/
@[simp] theorem fireTop_frame (st : Stroke) (s : State) :
    (fireTop st s).pvw = s.pvw ∧ (fireTop st s).cpl = s.cpl ∧ (fireTop st s).ldr = s.ldr ∧ (fireTop st s).pins = s.pins ∧
    (fireTop st s).nowMs = s.nowMs ∧ (fireTop st s).freeCount = s.freeCount ∧ (fireTop st s).pending = s.pending := by
  simp [fireTop]

/-- `strokeCredit` changes ssq, lco alone. -/
@[simp] theorem strokeCredit_frame (a : Retained) (s : State) :
    (strokeCredit a s).lif = s.lif ∧ (strokeCredit a s).pvw = s.pvw ∧ (strokeCredit a s).cpl = s.cpl ∧
    (strokeCredit a s).msq = s.msq ∧ (strokeCredit a s).fct = s.fct ∧ (strokeCredit a s).mct = s.mct ∧
    (strokeCredit a s).ors = s.ors ∧ (strokeCredit a s).srs = s.srs ∧ (strokeCredit a s).ldr = s.ldr ∧
    (strokeCredit a s).pins = s.pins ∧ (strokeCredit a s).nowMs = s.nowMs ∧ (strokeCredit a s).freeCount = s.freeCount ∧
    (strokeCredit a s).pending = s.pending := by
  simp [strokeCredit]

/-- `creditStroke` changes ssq, lco alone. -/
@[simp] theorem creditStroke_frame (a : Option Retained) (s : State) :
    (creditStroke a s).lif = s.lif ∧ (creditStroke a s).pvw = s.pvw ∧ (creditStroke a s).cpl = s.cpl ∧
    (creditStroke a s).msq = s.msq ∧ (creditStroke a s).fct = s.fct ∧ (creditStroke a s).mct = s.mct ∧
    (creditStroke a s).ors = s.ors ∧ (creditStroke a s).srs = s.srs ∧ (creditStroke a s).ldr = s.ldr ∧
    (creditStroke a s).pins = s.pins ∧ (creditStroke a s).nowMs = s.nowMs ∧ (creditStroke a s).freeCount = s.freeCount ∧
    (creditStroke a s).pending = s.pending := by
  simp only [creditStroke]
  (repeat' split) <;> simp

/-- `startPosts` changes lif, mct alone. -/
@[simp] theorem startPosts_frame (s : State) :
    (startPosts s).pvw = s.pvw ∧ (startPosts s).lco = s.lco ∧ (startPosts s).cpl = s.cpl ∧ (startPosts s).ssq = s.ssq ∧
    (startPosts s).msq = s.msq ∧ (startPosts s).fct = s.fct ∧ (startPosts s).ors = s.ors ∧ (startPosts s).srs = s.srs ∧
    (startPosts s).ldr = s.ldr ∧ (startPosts s).pins = s.pins ∧ (startPosts s).nowMs = s.nowMs ∧
    (startPosts s).freeCount = s.freeCount ∧ (startPosts s).pending = s.pending := by
  simp only [startPosts]
  (repeat' split) <;> simp

/-- `endOfStep3` changes lif, ors, mct, fct, lco, msq, ssq, pvw alone. -/
@[simp] theorem endOfStep3_frame (b : Bool) (s : State) :
    (endOfStep3 b s).cpl = s.cpl ∧ (endOfStep3 b s).srs = s.srs ∧ (endOfStep3 b s).ldr = s.ldr ∧
    (endOfStep3 b s).pins = s.pins ∧ (endOfStep3 b s).nowMs = s.nowMs ∧ (endOfStep3 b s).freeCount = s.freeCount ∧
    (endOfStep3 b s).pending = s.pending := by
  simp only [endOfStep3]
  (repeat' split) <;> simp

/-- `beginListen` changes srs alone. -/
@[simp] theorem beginListen_frame (s : State) :
    (beginListen s).lif = s.lif ∧ (beginListen s).pvw = s.pvw ∧ (beginListen s).lco = s.lco ∧
    (beginListen s).cpl = s.cpl ∧ (beginListen s).ssq = s.ssq ∧ (beginListen s).msq = s.msq ∧
    (beginListen s).fct = s.fct ∧ (beginListen s).mct = s.mct ∧ (beginListen s).ors = s.ors ∧ (beginListen s).ldr = s.ldr ∧
    (beginListen s).pins = s.pins ∧ (beginListen s).nowMs = s.nowMs ∧ (beginListen s).freeCount = s.freeCount ∧
    (beginListen s).pending = s.pending := by
  simp [beginListen]

/-- `joinLine` changes lif alone. -/
@[simp] theorem joinLine_frame (s : State) :
    (joinLine s).pvw = s.pvw ∧ (joinLine s).lco = s.lco ∧ (joinLine s).cpl = s.cpl ∧ (joinLine s).ssq = s.ssq ∧
    (joinLine s).msq = s.msq ∧ (joinLine s).fct = s.fct ∧ (joinLine s).mct = s.mct ∧ (joinLine s).ors = s.ors ∧
    (joinLine s).srs = s.srs ∧ (joinLine s).ldr = s.ldr ∧ (joinLine s).pins = s.pins ∧ (joinLine s).nowMs = s.nowMs ∧
    (joinLine s).freeCount = s.freeCount ∧ (joinLine s).pending = s.pending := by
  simp [joinLine]

/-- `startCycle` changes cpl alone. -/
@[simp] theorem startCycle_frame (s : State) :
    (startCycle s).lif = s.lif ∧ (startCycle s).pvw = s.pvw ∧ (startCycle s).lco = s.lco ∧ (startCycle s).ssq = s.ssq ∧
    (startCycle s).msq = s.msq ∧ (startCycle s).fct = s.fct ∧ (startCycle s).mct = s.mct ∧ (startCycle s).ors = s.ors ∧
    (startCycle s).srs = s.srs ∧ (startCycle s).ldr = s.ldr ∧ (startCycle s).pins = s.pins ∧
    (startCycle s).nowMs = s.nowMs ∧ (startCycle s).freeCount = s.freeCount ∧ (startCycle s).pending = s.pending := by
  simp only [startCycle]
  (repeat' split) <;> simp

end Sys2Proof.Machine
end

