-- ==== Sys2Proof/Laws/Causes.lean ====
section
/-! SUPPORT. What the shared operations leave of the receive FIFO, what the cause operations make of MCT's state, and when a post or
an order command takes its post. -/

namespace Sys2Proof.Machine

/-! ### The receive FIFO -/

@[simp] theorem requestLevel_fifo (s : State) : (requestLevel s).lif.fifo = s.lif.fifo := by
  simp only [requestLevel, wantLevelPost]; split <;> simp

@[simp] theorem queueGate_fifo (y : Bool) (s : State) : (queueGate y s).lif.fifo = s.lif.fifo := by
  simp only [queueGate, queueGatePost]; split <;> simp

@[simp] theorem queueHalt_fifo (p : HaltPost) (s : State) : (queueHalt p s).lif.fifo = s.lif.fifo := by
  simp only [queueHalt, queueHaltPost]; split <;> simp

@[simp] theorem gateChanged_fifo (y : Bool) (s : State) : (gateChanged y s).lif.fifo = s.lif.fifo := by
  simp [gateChanged]

@[simp] theorem tryClaim_fifo (s : State) : (tryClaim s).lif.fifo = s.lif.fifo := by
  simp only [tryClaim, queueClaimPost]; split <;> simp

@[simp] theorem enterWant_fifo (s : State) : (enterWant s).lif.fifo = s.lif.fifo := by simp [enterWant]

@[simp] theorem wantOrDry_fifo (s : State) : (wantOrDry s).lif.fifo = s.lif.fifo := by
  simp only [wantOrDry]; split <;> simp

@[simp] theorem testDry_fifo (s : State) : (testDry s).lif.fifo = s.lif.fifo := by
  simp only [testDry]; split <;> simp

@[simp] theorem enterBackoff_fifo (n : Nat) (s : State) : (enterBackoff n s).lif.fifo = s.lif.fifo := by
  simp [enterBackoff]

@[simp] theorem enterClosed_fifo (s : State) : (enterClosed s).lif.fifo = s.lif.fifo := by
  simp only [enterClosed]; split <;> (try split) <;> simp

@[simp] theorem enterClosing_fifo (y : Bool) (s : State) : (enterClosing y s).lif.fifo = s.lif.fifo := by
  simp only [enterClosing]; split <;> simp

@[simp] theorem endPour_fifo (r : EndReason) (s : State) : (endPour r s).lif.fifo = s.lif.fifo := by
  simp only [endPour]; split <;> simp

@[simp] theorem abandonClaim_fifo (s : State) : (abandonClaim s).lif.fifo = s.lif.fifo := by
  simp only [abandonClaim]; split <;> simp; split <;> simp [withdrawClaimPost]; (repeat' split) <;> simp

@[simp] theorem beginBlock_fifo (s : State) : (beginBlock s).lif.fifo = s.lif.fifo := by
  simp only [beginBlock]; split <;> simp

@[simp] theorem reportBlock_fifo (s : State) : (reportBlock s).lif.fifo = s.lif.fifo := by
  simp only [reportBlock]; (repeat' split) <;> simp

@[simp] theorem yieldTest_fifo (s : State) : (yieldTest s).lif.fifo = s.lif.fifo := by
  simp only [yieldTest]; split <;> simp

@[simp] theorem signalFeed_fifo (a b : Bool) (s : State) : (signalFeed a b s).lif.fifo = s.lif.fifo := by
  simp only [signalFeed]; (repeat' split) <;> simp

@[simp] theorem afterCauses_fifo (m : Mct) (s : State) : (afterCauses m s).lif.fifo = s.lif.fifo := by
  simp only [afterCauses]; (repeat' split) <;> simp

@[simp] theorem addHold_fifo (c : HoldCause) (s : State) : (addHold c s).lif.fifo = s.lif.fifo := by
  simp only [addHold]; (repeat' split) <;> simp

@[simp] theorem removeHold_fifo (c : HoldCause) (s : State) : (removeHold c s).lif.fifo = s.lif.fifo := by
  simp [removeHold]

@[simp] theorem addSafe_fifo (c : SafeCause) (s : State) : (addSafe c s).lif.fifo = s.lif.fifo := by
  simp only [addSafe, haltForEntry]; (repeat' split) <;> simp

@[simp] theorem reduceSafe_fifo (f : SafeSet) (s : State) : (reduceSafe f s).lif.fifo = s.lif.fifo := by
  simp only [reduceSafe]; (repeat' split) <;> simp

@[simp] theorem removeSafe_fifo (c : SafeCause) (s : State) : (removeSafe c s).lif.fifo = s.lif.fifo := by
  simp [removeSafe]

@[simp] theorem retestClash_fifo (s : State) : (retestClash s).lif.fifo = s.lif.fifo := by
  simp only [retestClash]; (repeat' split) <;> simp

/-! ### Cuts and own height -/

/-- A cut request leaves SSQ as R78 says. -/
theorem cutStroke_ssq (s : State) : (cutStroke s).ssq = cutLeaves s := by
  simp only [cutStroke, cutLeaves]
  cases s.ssq.phase <;> simp [leavePressurize, leaveLift, liftOff, withRiseEnd]

/-- A cut request leaves MSQ as R78 and R127 say. -/
theorem cutStroke_msq (s : State) : (cutStroke s).msq = cutWithdraws s := by
  simp only [cutStroke, cutWithdraws]
  cases s.ssq.phase <;> simp [withdrawStart]

@[simp] theorem cutStroke_height (s : State) :
    (cutStroke s).ssq.height = s.ssq.height ∧ (cutStroke s).ssq.heightValid = s.ssq.heightValid := by
  simp only [cutStroke]; split <;> simp [leavePressurize, leaveLift, liftOff]

@[simp] theorem addSafe_height (c : SafeCause) (s : State) :
    (addSafe c s).ssq.height = s.ssq.height ∧ (addSafe c s).ssq.heightValid = s.ssq.heightValid := by
  simp only [addSafe, haltForEntry]; (repeat' split) <;> simp

@[simp] theorem retestClash_height (s : State) :
    (retestClash s).ssq.height = s.ssq.height ∧ (retestClash s).ssq.heightValid = s.ssq.heightValid := by
  simp only [retestClash, removeSafe, reduceSafe]; (repeat' split) <;> simp

/-! ### MCT's state after the cause operations -/

/-- `afterCauses` sets the settling mark by R140 and leaves the rest of MCT's state. -/
theorem afterCauses_mct (m : Mct) (s : State) :
    (afterCauses m s).mct =
      { s.mct with settling := s.mct.settling || settlesNow (decide (s.ssq.phase ≠ .idle)) m s.mct } := by
  have hr : ∀ x : State, (reportBlock x).mct = x.mct := by intro x; simp
  simp only [afterCauses, hr]
  have h1 : ∀ x : State, ∀ b : Bool, (if b = true then requestLevel x else x).mct = x.mct ∧
      (if b = true then requestLevel x else x).ssq = x.ssq := by
    intro x b; cases b <;> simp
  generalize hs1 : (if decide (modeOf m ≠ modeOf s.mct) = true then requestLevel s else s) = s1
  have e1 : s1.mct = s.mct ∧ s1.ssq = s.ssq := by rw [← hs1]; exact h1 s _
  generalize hs2 : (if decide (modeOf m ≠ modeOf s.mct) = true ∧ modeOf s1.mct = Mode.climb then
    s1.setOrs { s1.ors with amend := false } else s1) = s2
  have e2 : s2.mct = s.mct ∧ s2.ssq = s.ssq := by rw [← hs2]; split <;> simp [e1]
  rw [e2.1, e2.2]
  cases hset : settlesNow (decide (s.ssq.phase ≠ .idle)) m s.mct <;> simp [e2]

/-- `addHold` puts the cause in and sets the settling mark by R140. -/
theorem addHold_mct (c : HoldCause) (s : State) :
    ∃ b, (addHold c s).mct = { s.mct with hold := holdPut s.mct.hold c true, settling := b } := by
  simp only [addHold, afterCauses_mct]
  split <;> exact ⟨_, by simp; rfl⟩

/-- `removeHold` takes the cause out. -/
theorem removeHold_mct (c : HoldCause) (s : State) :
    ∃ b, (removeHold c s).mct = { s.mct with hold := holdPut s.mct.hold c false, settling := b } := by
  simp only [removeHold, afterCauses_mct]
  exact ⟨_, by simp; rfl⟩

/-- `queueHalt` changes the queued halt alone in MCT. -/
theorem queueHalt_safe (p : HaltPost) (s : State) :
    (queueHalt p s).mct.safe = s.mct.safe ∧ (queueHalt p s).mct.hold = s.mct.hold ∧
      (queueHalt p s).mct.base = s.mct.base ∧ (queueHalt p s).mct.settling = s.mct.settling := by
  simp only [queueHalt]; split <;> simp

/-- `addSafe` puts the cause in and leaves the base, the hold set and the other SAFE causes. -/
theorem addSafe_mct (c : SafeCause) (s : State) :
    (addSafe c s).mct.safe = safePut s.mct.safe c true ∧ (addSafe c s).mct.hold = s.mct.hold ∧
      (addSafe c s).mct.base = s.mct.base ∧ (addSafe c s).mct.window = s.mct.window ∧
      (addSafe c s).mct.restored = s.mct.restored ∧ (addSafe c s).mct.key = s.mct.key ∧
      (addSafe c s).mct.estopActive = s.mct.estopActive ∧ (addSafe c s).mct.lastHalt = s.mct.lastHalt := by
  simp only [addSafe, haltForEntry]
  split
  · rename_i h
    refine ⟨?_, rfl, rfl, rfl, rfl, rfl, rfl, rfl⟩
    cases c <;> simp only [safeHas] at h <;> simp only [safePut] <;> rw [← h]
  · (repeat' split) <;> simp [afterCauses_mct, queueHalt] <;> (repeat' split) <;>
      simp [afterCauses_mct]

/-- The sector-clash condition follows the table (R39). -/
theorem retestClash_pvw (s : State) :
    (retestClash s).pvw =
      { s.pvw with sectorClash := sectorClashes (ownStation s) (sectorOf s.srs.active) s.pvw.peers } := by
  simp only [retestClash]
  split
  · rename_i h; rw [h]
  · split <;> rename_i h2 h
    · simp [h]
    · simp only [removeSafe, reduceSafe]
      split <;> simp [h]

/-- A sector-clash condition that stands as the table gives it changes nothing. -/
theorem retestClash_same (s : State)
    (h : sectorClashes (ownStation s) (sectorOf s.srs.active) s.pvw.peers = s.pvw.sectorClash) : retestClash s = s := by
  simp [retestClash, h]

/-! ### The feed and the orders after a change of the cause sets -/

/-- A pour block that stands as last reported changes nothing (R100). -/
theorem reportBlock_same (s : State) (h : pourBlocked s = s.fct.blocked) : reportBlock s = s := by
  simp [reportBlock, h]

/-- The pour block depends on these parts of the state alone (R99). -/
theorem pourBlocked_congr {s t : State} (mode : modeOf s.mct = modeOf t.mct)
    (haltAll : s.mct.hold.haltAll = t.mct.hold.haltAll) (estop : s.mct.hold.estop = t.mct.hold.estop)
    (key : s.mct.key = t.mct.key) (msq : s.msq = t.msq) (fct : s.fct = t.fct) (muted : s.lif.muted = t.lif.muted) :
    pourBlocked s = pourBlocked t := by
  simp only [pourBlocked, mode, msq, fct, muted, haltAll, estop, key]

@[simp] theorem wantLevelPost_muted (n : Nat) (l : Lif) : (wantLevelPost n l).muted = l.muted := by
  simp only [wantLevelPost]; split <;> rfl

/-- The mode does not depend on the settling mark. -/
theorem modeOf_settling (m : Mct) (b : Bool) : modeOf { m with settling := b } = modeOf m := rfl

/-- Where the pour block stands as last reported, `afterCauses` leaves the feed and the column, and wants a LEVEL post at a change of
mode alone (R135). -/
theorem afterCauses_feed (m : Mct) (s : State) (h : pourBlocked s = s.fct.blocked) :
    (afterCauses m s).fct = s.fct ∧ (afterCauses m s).lco = s.lco ∧
      (afterCauses m s).lif = (if modeOf s.mct = modeOf m then s.lif else wantLevelPost (ownStation s) s.lif) := by
  have key : ∀ s1 s2 s3 : State, s1 = (if decide (modeOf m ≠ modeOf s.mct) then requestLevel s else s) →
     s2 = (if decide (modeOf m ≠ modeOf s.mct) = true ∧ modeOf s1.mct = .climb then s1.setOrs { s1.ors with amend := false } else s1) →
     s3 = (if settlesNow (decide (s2.ssq.phase ≠ .idle)) m s2.mct then s2.setMct { s2.mct with settling := true } else s2) →
     reportBlock s3 = s3 ∧ s3.fct = s.fct ∧ s3.lco = s.lco ∧ s3.lif = (if modeOf s.mct = modeOf m then s.lif else wantLevelPost (ownStation s) s.lif) := by
    intro s1 s2 s3 h1 h2 h3
    have e1 : s1.mct = s.mct ∧ s1.msq = s.msq ∧ s1.fct = s.fct ∧ s1.lco = s.lco ∧ s1.lif = (if modeOf s.mct = modeOf m then s.lif else wantLevelPost (ownStation s) s.lif) := by
      subst h1; by_cases hm : modeOf m = modeOf s.mct
      · simp [hm]
      · simp [hm, eq_comm, requestLevel]
    have e2 : s2.mct = s1.mct ∧ s2.msq = s1.msq ∧ s2.fct = s1.fct ∧ s2.lco = s1.lco ∧ s2.lif = s1.lif := by
      subst h2; split <;> simp
    have e3 : modeOf s3.mct = modeOf s2.mct ∧ s3.mct.hold = s2.mct.hold ∧ s3.mct.key = s2.mct.key ∧ s3.msq = s2.msq ∧ s3.fct = s2.fct ∧ s3.lco = s2.lco ∧ s3.lif = s2.lif := by
      subst h3; split <;> simp [modeOf_settling]
    have hl : s3.lif.muted = s.lif.muted := by
      rw [e3.2.2.2.2.2.2, e2.2.2.2.2, e1.2.2.2.2]; split <;> simp
    have hb : pourBlocked s3 = pourBlocked s := by
      apply pourBlocked_congr <;> (try exact hl) <;> simp [e1, e2, e3]
    refine ⟨reportBlock_same _ ?_, ?_, ?_, ?_⟩ <;> simp [e1, e2, e3, hb, h]
  obtain ⟨k1, k2, k3, k4⟩ := key _ _ _ rfl rfl rfl
  have : afterCauses m s = _ := k1
  rw [this]; exact ⟨k2, k3, k4⟩

/-- With amend mode ended, `afterCauses` leaves ORS as it is. -/
theorem afterCauses_ors (m : Mct) (s : State) (h : s.ors.amend = false) : (afterCauses m s).ors = s.ors := by
  simp only [afterCauses]
  have := h
  have e : { s.ors with amend := false } = s.ors := by rw [← h]
  (repeat' split) <;> simp [e]

/-! ### Posts and orders taken -/

/-- A post that waits is taken, and the rest of the FIFO stays (R164). -/
theorem takenFrom_waits {p : RxPost} {rest : List RxPost} {s : State} (h : Waits p rest s) :
    takenFrom p s.lif = some { s.lif with fifo := rest } := by
  unfold takenFrom
  rcases h with h | ⟨h, h'⟩
  · simp [h]
  · subst h'
    simp [h]
    rw [← h]

/-- A post of another station is taken by PVW or MCT (R29, R144). -/
theorem takePost_taken {sender : Nat} {body : PostBody} {rest : List RxPost} {s : State}
    (h : PostTaken sender body rest s) : takePost sender body s = some (removed rest s) := by
  simp [takePost, h.runs, h.other, takenFrom_waits h.waits, removed]

/-- A post from outside the peers' stations is taken and its sender recognised as none (R29, R144). -/
theorem takePost_outside {sender : Nat} {body : PostBody} {rest : List RxPost} {s : State}
    (h : PostOutside sender body rest s) :
    takePost sender body s = some (removed rest s) ∧ isPeerStation sender = false := by
  have := h.outside
  exact ⟨by simp [takePost, h.runs, h.other, takenFrom_waits h.waits, removed], by simp [isPeerStation]; omega⟩

/-- A post with the own number is not there to be taken (R163). -/
theorem takePost_own {sender : Nat} (body : PostBody) {s : State} (h : sender = ownStation s) : takePost sender body s = none := by
  simp [takePost, h]

/-- An addressed order reaches its rule with its post taken (R177). -/
theorem takeCommand_addressed {i : Instr} {sender target : Nat} {code : Byte} {args : List Byte} {rest : List RxPost}
    {s : State} (ring : State → State) (act : State → Answer) (hp : orderParts i = some (sender, target, code, args))
    (h : AddressedOrder sender target code args rest s) :
    takeCommand i ring act s = answerOrder sender code act (removed rest s) := by
  have hw := takenFrom_waits h.waits
  rw [h.own] at hw
  have hs : ¬ ownStation s = 63 := fun hh => h.single (h.own.trans hh)
  simp only [takeCommand, hp, takeOrder, offered, h.runs, h.panel.1, h.panel.2, h.other, h.own, ne_eq, not_false_eq_true, true_or,
    and_self, if_true, hw, hs, Option.map_some, if_false]
  rfl

/-- A ring-wide order reaches its rule with its post taken, unless a STORE waits (R177). -/
theorem takeCommand_ring {i : Instr} {sender : Nat} {code : Byte} {args : List Byte} {rest : List RxPost} {s : State}
    (ring : State → State) (act : State → Answer) (hp : orderParts i = some (sender, 63, code, args))
    (h : RingOrder sender code args rest s) :
    takeCommand i ring act s =
      if s.ors.storeWaiting.isSome then removed rest s else ring (removed rest s) := by
  simp only [takeCommand, hp, takeOrder, offered, h.runs, h.panel.1, h.panel.2, h.other, ne_eq, not_false_eq_true, or_true, and_self,
    if_true]
  rw [takenFrom_waits h.waits]
  rfl

/-- An order of the own number, of a sender outside 1 to 62 or for another station is not offered (R163, R177). -/
theorem takeCommand_foreign {i : Instr} {sender target : Nat} {code : Byte} {args : List Byte} {s : State}
    (ring : State → State) (act : State → Answer) (hp : orderParts i = some (sender, target, code, args))
    (h : sender = ownStation s ∨ sender = 0 ∨ 62 < sender ∨ (target ≠ ownStation s ∧ target ≠ 63)) :
    takeCommand i ring act s = s := by
  have hf : ¬ (blocksRun s = true ∧ 1 ≤ sender ∧ sender ≤ 62 ∧ sender ≠ ownStation s ∧
      (target = ownStation s ∨ target = 63)) := by
    rintro ⟨-, h1, h2, h3, h4⟩
    rcases h with h | h | h | ⟨ha, hb⟩
    · exact h3 h
    · omega
    · omega
    · exact h4.elim ha hb
  simp only [takeCommand, hp, takeOrder, offered, hf, if_false]

/-- An addressed order that ends amend mode is answered by its own rule while no STORE waits (R177). -/
theorem answerOrder_judged {sender : Nat} {code : Byte} {act : State → Answer} {rest : List RxPost} {s : State}
    (hk : keepsAmend code = false) (h : NotStoring s) :
    answerOrder sender code act (removed rest s) = deliverReply sender code (act (judged rest s)) := by
  have h1 : (judged rest s).ors.storeWaiting.isSome = false := congrArg Option.isSome h
  have h2 : (removed rest s).setOrs { (removed rest s).ors with amend := false } = judged rest s := rfl
  simp only [answerOrder, endAmend, hk, h2, h1, if_false, Bool.false_eq_true]

/-- READ and AMEND are answered by their own rules with amend mode kept (R177, R184). -/
theorem answerOrder_kept {sender : Nat} {code : Byte} {act : State → Answer} {rest : List RxPost} {s : State}
    (hk : keepsAmend code = true) (h : NotStoring s) :
    answerOrder sender code act (removed rest s) = deliverReply sender code (act (removed rest s)) := by
  have h1 : (removed rest s).ors.storeWaiting.isSome = false := congrArg Option.isSome h
  simp only [answerOrder, endAmend, hk, h1, if_false, if_true, Bool.false_eq_true]

end Sys2Proof.Machine
end

