-- ==== Sys2Proof/Laws/Feed.lean ====
section
/-! SUPPORT. What the feed's shared operations and the peer table's can do, said once each in the terms of Safety.lean. -/

namespace Sys2Proof.Machine

/-- The pour block is the seven conditions of R99. -/
theorem pourBlocked_iff (s : State) : pourBlocked s = true ↔ blockedNow s := by
  simp [pourBlocked, blockedNow, or_assoc]

/-- The pour is not blocked where none of the seven holds. -/
theorem pourBlocked_eq_false (s : State) : pourBlocked s = false ↔ ¬ blockedNow s := by
  rw [← pourBlocked_iff]; simp

/-- The test of R101 is its four conditions. -/
theorem wantsConcrete_iff (s : State) : wantsConcrete s = true ↔ wants s := by
  simp [wantsConcrete, wants, ← pourBlocked_eq_false, and_assoc]

/-- A place is left under the gate limit where O is below K (R102). -/
theorem placesLeft_iff (s : State) : 1 ≤ placesLeft s ↔ (notClosedGates s : Int) < s.srs.active.gateLimit := by
  show 1 ≤ s.srs.active.gateLimit - (notClosedGates s : Int) ↔ _
  omega

/-- `wantOrDry` enters WANT, with its claim where there is a place, or DRY. -/
theorem wantOrDry_spec (s : State) : wantedOrDry s (wantOrDry s) := by
  refine ⟨fun h => ?_, fun h1 h2 => ?_, fun h1 h2 => ?_⟩
  · rw [← wantsConcrete_iff] at h; simp [wantOrDry, h, setPour]
  · have h3 : 1 ≤ placesLeft (setPour .want s) := (placesLeft_iff s).2 h2
    rw [← wantsConcrete_iff] at h1
    simp only [wantOrDry, h1, if_true, enterWant, tryClaim, h3]; rfl
  · have h3 : ¬ 1 ≤ placesLeft (setPour .want s) := fun h => absurd ((placesLeft_iff s).1 h) (by omega)
    rw [← wantsConcrete_iff] at h1
    simp only [wantOrDry, h1, if_true, enterWant, tryClaim, h3]; rfl

/-- A pour state set to what it is changes nothing. -/
theorem setPour_same (p : PourState) (s : State) (h : s.fct.pour = p) : setPour p s = s := by subst h; rfl

/-- In DRY the test of R101 does what "WANT or DRY" does. -/
theorem testDry_spec (s : State) (h : s.fct.pour = .dry) : wantedOrDry s (testDry s) := by
  have e : testDry s = wantOrDry s := by
    by_cases hw : wantsConcrete s = true <;> simp [testDry, wantOrDry, h, hw, setPour_same]
  exact e ▸ wantOrDry_spec s

/-- A change of gate state with its two posts (R97). -/
theorem gateChanged_posts (yielded : Bool) (f : Fct) (s : State) :
    gateChanged yielded (s.setFct f) = (s.setLif (gatePosts f.gate f.needAtOpen yielded s)).setFct f := by
  by_cases h : ownStation s = 0
  · have h' : stationOf s.srs.active = 0 := h
    simp [gateChanged, queueGate, requestLevel, gatePosts, h', ownStation, wantLevelPost, State.setFct, State.setLif]
  · have h' : stationOf s.srs.active ≠ 0 := h
    simp [gateChanged, queueGate, requestLevel, gatePosts, h', ownStation, State.setFct, State.setLif]

/-- The gate at its entry to CLOSING in ENDING (R95). -/
theorem enterClosing_ending (yielded : Bool) (f : Fct) (s : State) :
    enterClosing yielded (setPour .ending (s.setFct f)) =
      if s.pins.gateClosedLimit then
        enterClosed ((s.setLif (gatePosts .closing f.needAtOpen yielded s)).setFct
          { f with gate := .closing, motor := .closeDrive, travelMs := 0, pour := .ending })
      else
        (s.setLif (gatePosts .closing f.needAtOpen yielded s)).setFct
          { f with gate := .closing, motor := .closeDrive, travelMs := 0, pour := .ending } := by
  have h : gateChanged yielded ((setPour .ending (s.setFct f)).setFct
      { (setPour .ending (s.setFct f)).fct with gate := .closing, motor := .closeDrive, travelMs := 0 }) =
        (s.setLif (gatePosts .closing f.needAtOpen yielded s)).setFct
          { f with gate := .closing, motor := .closeDrive, travelMs := 0, pour := .ending } :=
    gateChanged_posts yielded { f with gate := .closing, motor := .closeDrive, travelMs := 0, pour := .ending } s
  simp only [enterClosing, h]; rfl

/-- What `endPour` can do, whatever the gate and the closed limit (R109). -/
theorem endPour_spec (reason : EndReason) (f : Fct) (s : State) :
    pourEndsTo reason (decide (reason = .yielded)) f s (endPour reason (s.setFct f)) := by
  have hg : f.gate = .opening ∨ f.gate = .opened →
      (setPour .ending (s.setFct f)).fct.gate = .opening ∨ (setPour .ending (s.setFct f)).fct.gate = .opened := id
  refine ⟨fun h1 h2 => ?_, fun h => ⟨fun hc => ?_, fun hc => ?_⟩⟩
  · simp [endPour, setPour, h1, h2]; rfl
  · simp only [endPour, hg h, if_true, enterClosing_ending, hc]; rfl
  · have e : gateChanged false
        (((s.setLif (gatePosts .closing f.needAtOpen (decide (reason = .yielded)) s)).setFct
          { f with gate := .closing, motor := .closeDrive, travelMs := 0, pour := .ending }).setFct
            { f with gate := .closed, motor := .off, travelMs := 0, needAtOpen := none, pour := .ending }) =
          closedAtOnce (decide (reason = .yielded)) f s :=
      gateChanged_posts false { f with gate := .closed, motor := .off, travelMs := 0, needAtOpen := none, pour := .ending }
        (s.setLif (gatePosts .closing f.needAtOpen (decide (reason = .yielded)) s))
    refine ⟨enterClosed ((s.setLif (gatePosts .closing f.needAtOpen (decide (reason = .yielded)) s)).setFct
          { f with gate := .closing, motor := .closeDrive, travelMs := 0, pour := .ending }), ?_, fun hy => ?_, fun hy => ?_⟩
    · simp only [endPour, hg h, if_true, enterClosing_ending, hc]; simp
    · simp only [enterClosed, State.setFct_fct, e]
      simp [closedAtOnce, hy, enterBackoff]; rfl
    · have h1 : (closedAtOnce (decide (reason = .yielded)) f s).fct.pour = .ending := rfl
      have h2 : (closedAtOnce (decide (reason = .yielded)) f s).fct.yieldMark = false := hy
      simp only [enterClosed, State.setFct_fct, e, h1, h2]
      exact wantOrDry_spec _

/-- What `enterClosed` can do (R95 to R97, R101, R111). -/
theorem enterClosed_spec (s : State) : gateCloses s (enterClosed s) := by
  have e := gateChanged_posts false { s.fct with gate := .closed, motor := .off, needAtOpen := none } s
  refine ⟨_, rfl, fun hp hy => ?_, fun hp hy => ?_, fun hp => ?_, fun hp hd => ?_⟩
  · simp only [enterClosed, e]; simp only [State.setFct_fct, hp, hy, if_true]; rfl
  · simp only [enterClosed, e]; simp only [State.setFct_fct, hp, hy, if_false, Bool.false_eq_true]
    exact wantOrDry_spec _
  · have k := testDry_spec ((s.setLif (gatePosts .closed none false s)).setFct
      { s.fct with gate := .closed, motor := .off, needAtOpen := none }) hp
    simp only [enterClosed, e]; simp only [State.setFct_fct, hp] at k ⊢
    exact k
  · simp only [enterClosed, e]; cases h : s.fct.pour <;> simp_all only [State.setFct_fct, ne_eq, not_true_eq_false]

/-- The withdrawal of the CLAIM post is R168's. -/
theorem withdrawClaimPost_eq (l : Lif) : withdrawClaimPost l = claimWithdrawn l := by
  obtain ⟨_, cs, _, _, _, _, tr, _⟩ := l
  simp only [withdrawClaimPost, claimWithdrawn]
  cases cs <;> cases tr <;> simp
  · rename_i tx; cases tx with | mk body _ _ _ => cases body <;> simp [kindCode]
  · rename_i tx; cases tx with | mk body _ _ _ => cases body <;> simp

/-- What the beginning of the pour block can do (R100). -/
theorem beginBlock_spec (s : State) : blockBegun s (beginBlock (s.setFct { s.fct with blocked := true })) := by
  refine ⟨fun h => ?_, fun h => ?_, fun h => ?_, fun h => ?_⟩
  · rcases h with h | h <;> simp [beginBlock, h]
  · rcases h with h | h <;> simp [beginBlock, h, setPour] <;> rfl
  · simp only [beginBlock, State.setFct_fct, h, abandonClaim]
    cases hc : s.fct.ownClaim with
    | none => simp only [setPour]; rw [State.setFct_fct]; simp; rfl
    | some c => cases hs : c.sent <;> simp [hs, withdrawClaimPost_eq] <;> rfl
  · have e : beginBlock (s.setFct { s.fct with blocked := true }) = endPour .blocked (s.setFct { s.fct with blocked := true }) := by
      simp [beginBlock, h]
    rw [e]; exact endPour_spec .blocked { s.fct with blocked := true } s

/-- What a change of the pour block's conditions can do (R99, R100). -/
theorem reportBlock_spec (s : State) : blockTested s (reportBlock s) := by
  refine ⟨fun h hb => ?_, fun h hb => ?_, fun h hb => ?_, fun h hb => ⟨fun hp => ?_, fun hp => ?_⟩⟩
  · exact reportBlock_same s (by rw [hb]; exact (pourBlocked_iff s).2 h)
  · exact reportBlock_same s (by rw [hb]; exact (pourBlocked_eq_false s).2 h)
  · have e : reportBlock s = beginBlock (s.setFct { s.fct with blocked := true }) := by
      simp [reportBlock, (pourBlocked_iff s).2 h, hb]
    rw [e]; exact beginBlock_spec s
  · have e : reportBlock s = testDry (s.setFct { s.fct with blocked := false }) := by
      simp [reportBlock, (pourBlocked_eq_false s).2 h, hb]
    rw [e]; exact testDry_spec _ hp
  · have e : reportBlock s = testDry (s.setFct { s.fct with blocked := false }) := by
      simp [reportBlock, (pourBlocked_eq_false s).2 h, hb]
    rw [e]; simp [testDry, hp]

/-- The rank of R110 as R110 words it. -/
theorem gateRank_eq (s : State) : gateRank (ownStation s) (s.fct.needAtOpen.getD 0) s.pvw.peers = ownGateRank s := by
  simp only [gateRank, ownGateRank]
  refine congrArg _ (congrArg (List.countP · s.pvw.peers) (funext fun p => ?_))
  simp [gateAhead, gateInUse, ranksAhead, Bool.decide_or, Bool.decide_and]

/-- A of R110 as R110 words it. -/
theorem pumpGates_eq (s : State) : pumpGates s.pvw.peers = 1 + openGates s + jammedCount s.pvw.peers := by
  simp only [pumpGates, openGates]
  exact congrArg (1 + · + _) (congrArg (List.countP · s.pvw.peers) (funext fun p => by simp [gateInUse]))

/-- An entry placed among entries of other stations is its station's. -/
theorem findPeer_insertPeer (e : Peer) (l : List Peer) (h : ∀ x ∈ l, x.station ≠ e.station) :
    findPeer e.station (insertPeer e l) = some e := by
  induction l with
  | nil => simp [insertPeer, findPeer]
  | cons q qs ih =>
    have hq := h q (by simp)
    have := ih fun x hx => h x (by simp [hx])
    simp only [insertPeer]
    split <;> simp_all [findPeer]

/-- The entry put in its place is its station's. -/
theorem findPeer_putPeer (e : Peer) (l : List Peer) : findPeer e.station (putPeer e l) = some e :=
  findPeer_insertPeer e _ fun x hx => by simp [removePeer] at hx; exact hx.2

end Sys2Proof.Machine
end

