-- ==== Sys2Proof/Laws/Modes.lean ====
section
/-! SUPPORT. What follows a change of the base or of a cause set, and what adding and removing causes can do: one lemma for each shared
operation, in the terms of Safety.lean. -/

namespace Sys2Proof.Machine

/-- `creepPermitted` is R139's answer. -/
theorem creepPermitted_iff (m : Mct) : creepPermitted m = true ↔ creepAllowed m := by
  simp [creepPermitted, creepAllowed, and_assoc]

/-- `settlesNow` is R140's list. -/
theorem settlesNow_iff (busy : Bool) (m m' : Mct) : settlesNow busy m m' = true ↔ busy = true ∧ settles m m' := by
  simp [settlesNow, settles, ← creepPermitted_iff, or_assoc]

/-- What `afterCauses` can do (R135, R136, R140). -/
theorem afterCauses_spec (m : Mct) (s : State) : modeFollowed m s (afterCauses m s) := by
  refine ⟨_, s.mct.settling || settlesNow (decide (s.ssq.phase ≠ .idle)) m s.mct, reportBlock_spec _, ?_, ?_⟩
  · simp [settlesNow_iff]
  · by_cases hm : modeOf s.mct = modeOf m
    · cases hs : settlesNow (decide (s.ssq.phase ≠ .idle)) m s.mct <;> simp_all <;> rfl
    · have hm' : ¬ modeOf m = modeOf s.mct := fun h => hm h.symm
      by_cases hc : modeOf s.mct = .climb
      · cases hs : settlesNow (decide (s.ssq.phase ≠ .idle)) m s.mct <;>
          simp_all [requestLevel] <;> rfl
      · cases hs : settlesNow (decide (s.ssq.phase ≠ .idle)) m s.mct <;>
          simp_all [requestLevel] <;> rfl

/-- A cut request changes SSQ and MSQ alone, as R78 and R127 say. -/
theorem cutStroke_eq (s : State) : cutStroke s = (s.setSsq (cutLeaves s)).setMsq (cutWithdraws s) := by
  rw [← cutStroke_ssq, ← cutStroke_msq]
  have := cutStroke_frame s
  simp only [cutStroke]
  split <;> rfl

/-- What `queueHalt` can do (R143). -/
theorem queueHalt_spec (p : HaltPost) (s : State) : haltQueued p s (queueHalt p s) := by
  refine ⟨fun h => by simp only [queueHalt, h, if_true], fun h1 h2 h3 => ?_⟩
  have h : ¬ (ownStation s = 0 ∨ s.mct.safe.identityClash = true ∨
      (p.kind = .climb ∧ s.mct.queuedHalt.map HaltPost.kind = some .all)) := by
    rintro (h | h | ⟨h, h'⟩)
    · exact h1 h
    · simp [h2] at h
    · rcases h3 with h3 | h3
      · simp [h] at h3
      · exact h3 h'
  simp only [queueHalt, h, if_false]

/-- What adding a hold cause that cuts can do (R136, R138). -/
theorem addHold_cuts (c : HoldCause) (h : isCutCause c = true) (s : State) :
    modeFollowed s.mct
      (((s.setSsq (cutLeaves s)).setMsq (cutWithdraws s)).setMct { s.mct with hold := holdPut s.mct.hold c true }) (addHold c s) := by
  have e : addHold c s = afterCauses s.mct (cutStroke (s.setMct { s.mct with hold := holdPut s.mct.hold c true })) := by
    simp [addHold, h]
  rw [e, cutStroke_eq]
  exact afterCauses_spec _ _

/-- What adding a hold cause that does not cut can do (R136). -/
theorem addHold_finishes (c : HoldCause) (h : isCutCause c = false) (s : State) :
    modeFollowed s.mct (s.setMct { s.mct with hold := holdPut s.mct.hold c true }) (addHold c s) := by
  have e : addHold c s = afterCauses s.mct (s.setMct { s.mct with hold := holdPut s.mct.hold c true }) := by
    simp [addHold, h]
  rw [e]
  exact afterCauses_spec _ _

/-- What removing a hold cause can do (R136). -/
theorem removeHold_spec (c : HoldCause) (s : State) :
    modeFollowed s.mct (s.setMct { s.mct with hold := holdPut s.mct.hold c false }) (removeHold c s) := afterCauses_spec _ _

/-- A cause put into a set that has it leaves the set. -/
theorem safePut_has (f : SafeSet) (c : SafeCause) (h : safeHas f c = true) : safePut f c true = f := by
  cases c <;> simp only [safeHas] at h <;> simp only [safePut, ← h]

/-- What `addSafe` can do (R137, R141, R143). -/
theorem addSafe_spec (c : SafeCause) (s : State) :
    causeAdded (haltReasonOf c) (safePut s.mct.safe c true) s (addSafe c s) := by
  by_cases hh : safeHas s.mct.safe c = true
  · have hn : s.mct.safe ≠ noSafe := fun h => by rw [h] at hh; cases c <;> simp [safeHas, noSafe] at hh
    refine ⟨fun _ => ?_, fun h => absurd h hn⟩
    rw [safePut_has _ _ hh]; simp [addSafe, hh]; rfl
  · refine ⟨fun h => by simp [addSafe, hh, h], fun h => ?_⟩
    refine ⟨afterCauses s.mct (cutStroke (s.setMct { s.mct with safe := safePut s.mct.safe c true })), ?_, ?_⟩
    · rw [cutStroke_eq]; exact afterCauses_spec _ _
    · have e : addSafe c s = haltForEntry c (afterCauses s.mct (cutStroke (s.setMct { s.mct with safe := safePut s.mct.safe c true }))) := by
        rw [addSafe, if_neg hh, if_pos h]
      rw [e]; simp only [haltForEntry]
      cases haltReasonOf c with
      | none => rfl
      | some why => exact queueHalt_spec _ _

/-- What `reduceSafe` can do (R137, R142). -/
theorem reduceSafe_spec (f : SafeSet) (s : State) : safeLeft f s (reduceSafe f s) := by
  refine ⟨fun h => by simp [reduceSafe, h], fun h => ?_⟩
  have e : reduceSafe f s = afterCauses s.mct (s.setMct (mctWithSafe f s.mct)) := by simp [reduceSafe, h]
  rw [e]; exact afterCauses_spec _ _

/-- What `retestClash` can do (R39). -/
theorem retestClash_spec (s : State) : clashTested s (retestClash s) := by
  refine ⟨fun h => ?_, fun h1 h2 => ?_, fun h1 h2 => ?_⟩
  · simp [retestClash, h]
  · simp only [retestClash, h1, h2, if_true, Bool.true_eq_false, if_false]
    exact addSafe_spec .sectorClash _
  · simp only [retestClash, h1, h2, if_false, Bool.false_eq_true]
    exact reduceSafe_spec _ _

end Sys2Proof.Machine
end

