-- ==== Sys2Proof/Laws/Readers.lean ====
section
/-! SUPPORT. What SSQ's tests of a conversion and the completion of SETTLE can do, said once each in the terms of Safety.lean. -/

namespace Sys2Proof.Machine

/-! ### Travels in LIFT (R70) -/

/-- A jack's travel as R70 words it. -/
theorem elemTravel_now (a : SampleElem) (e : ChanEntry) : elemTravel a (copyElem e) = travelNow a e := by
  rcases a with ⟨v, g⟩
  rcases e with ⟨w, st, f, o, gc⟩
  cases g <;> cases v <;> cases st <;> cases w <;> simp [elemTravel, copyElem, travelNow, isGood]

/-- The travels in LIFT as R70 words them. -/
theorem liftTravels_now (a : Sample) (t : ChanTable) : liftTravels a t = travelsNow a t := by
  simp [liftTravels, travelsBetween, jacksOf, jacksNow, jackEntries, travelsNow, elemTravel_now]

/-! ### The three sample sets (R75, R88, R90) -/

theorem elemTravel_in (a b : SampleElem) : elemTravel a b = travelIn a b := by
  rcases a with ⟨v, g⟩
  rcases b with ⟨w, k⟩
  cases g <;> cases v <;> cases k <;> cases w <;> simp [elemTravel, travelIn]

/-- The travels between two sample sets as R88 and R90 word them. -/
theorem travelsBetween_in (a b : Sample) : travelsBetween (jacksOf a) (jacksOf b) = travelsIn a b := by
  simp [travelsBetween, jacksOf, travelsIn, elemTravel_in]

/-- A jack takes part where the END sample has it good as well. -/
theorem alsoGood_travel (a e b : SampleElem) : elemTravel (alsoGood a e) b = if e.good then travelIn a b else none := by
  rw [← elemTravel_in]
  rcases e with ⟨v, g⟩
  cases g <;> simp [alsoGood, elemTravel]

/-- The travels of the climbed distance as R75 words them. -/
theorem climbTravels_taken {st : Stroke} {a b e : Sample} (h1 : st.startSample = some a) (h2 : st.topSample = some b)
    (h3 : st.endSample = some e) : climbTravels st = travelsTaken a b e := by
  simp only [climbTravels, h1, h2, h3, travelsBetween, jacksOf, List.zipWith_cons_cons,
    List.zipWith_nil_right, alsoGood_travel, travelsTaken, List.filterMap_cons, List.filterMap_nil, id_eq]

/-- The climbed distance (R75). -/
theorem climbedDistance_spec (takeUp : Int) (st : Stroke) :
    0 ≤ climbedDistance takeUp st ∧ (st.startSample = none → climbedDistance takeUp st = 0) ∧
    ∀ a b e travels, st.startSample = some a → st.topSample = some b → st.endSample = some e →
      travels = travelsTaken a b e →
        (travels = [] → climbedDistance takeUp st = 0) ∧
          (travels ≠ [] → climbedDistance takeUp st = max 0 (max 0 travels.sum / travels.length - takeUp)) := by
  refine ⟨?_, fun h => ?_, fun a b e travels h1 h2 h3 ht => ?_⟩
  · simp only [climbedDistance, climbOf]
    split <;> omega
  · simp [climbedDistance, climbTravels, h, climbOf]
  · subst ht
    simp only [climbedDistance, climbTravels_taken h1 h2 h3, climbOf, meanTravel]
    refine ⟨fun h => by simp [h], fun h => by simp [h]⟩

/-- The measured full stroke (R88). -/
theorem calibratedStroke_spec (st : Stroke) :
    (st.startSample = none ∨ st.topSample = none → calibratedStroke st = none) ∧
    ∀ a b m, st.startSample = some a → st.topSample = some b → m = (travelsIn a b).sum / (travelsIn a b).length →
      calibratedStroke st =
        if st.riseEnd = some .full ∧ st.faults = [] ∧ 3 ≤ (travelsIn a b).length ∧ 100 ≤ m ∧ m ≤ 600 then some m
        else none := by
  refine ⟨fun h => ?_, fun a b m h1 h2 hm => ?_⟩
  · have : fullTravels st = [] := by rcases h with h | h <;> simp [fullTravels, h]
    simp [calibratedStroke, this]
  · subst hm
    simp only [calibratedStroke, fullTravels, h1, h2, travelsBetween_in]

/-- floor(Σ/n), over no jack 0 (R90; log entry 37). -/
theorem meanTravel_spec (travels : List Int) : MeanOfTravels travels (meanTravel travels) :=
  ⟨fun h => by simp [meanTravel, h], fun h => by simp [meanTravel, h]⟩

/-- The extension at save (R90; log entries 33 and 37). -/
theorem extension_spec (s : State) :
    ExtensionSaved s (((s.ssq.stroke).map (extensionAtSave s.ssq.phase s.msq.table)).getD 0) := by
  refine ⟨fun h => by simp [h], fun st h => ⟨fun h1 => by simp [h, extensionAtSave, h1], fun a h1 => ⟨fun h2 => ?_,
    fun h2 h3 b h4 => ?_⟩⟩⟩
  · have : extensionAtSave s.ssq.phase s.msq.table st = meanTravel (travelsNow a s.msq.table) := by
      rw [← liftTravels_now]
      simp only [extensionAtSave, h1, liftTravels]
      rcases h2 with h2 | h2 | h2 <;> simp only [h2]
      cases s.ssq.phase <;> rfl
    simp only [h, Option.map_some, Option.getD_some, this]
    exact meanTravel_spec _
  · have : extensionAtSave s.ssq.phase s.msq.table st = meanTravel (travelsIn a b) := by
      rw [← travelsBetween_in]
      cases hp : s.ssq.phase <;> simp_all [extensionAtSave]
    simp only [h, Option.map_some, Option.getD_some, this]
    exact meanTravel_spec _

/-! ### LIFT's tests (R70) -/

/-- The fold of `max` is an upper bound and one of the values. -/
theorem foldl_max_spec (l : List Int) (x : Int) :
    x ≤ l.foldl max x ∧ (∀ y ∈ l, y ≤ l.foldl max x) ∧ (l.foldl max x = x ∨ l.foldl max x ∈ l) := by
  induction l generalizing x with
  | nil => simp
  | cons a as ih =>
    obtain ⟨h1, h2, h3⟩ := ih (max x a)
    simp only [List.foldl_cons, List.mem_cons, forall_eq_or_imp]
    refine ⟨by omega, ⟨by omega, h2⟩, ?_⟩
    rcases h3 with h | h
    · rcases Int.le_total x a with h' | h' <;> omega
    · exact .inr (.inr h)

/-- The fold of `min` is a lower bound and one of the values. -/
theorem foldl_min_spec (l : List Int) (x : Int) :
    l.foldl min x ≤ x ∧ (∀ y ∈ l, l.foldl min x ≤ y) ∧ (l.foldl min x = x ∨ l.foldl min x ∈ l) := by
  induction l generalizing x with
  | nil => simp
  | cons a as ih =>
    obtain ⟨h1, h2, h3⟩ := ih (min x a)
    simp only [List.foldl_cons, List.mem_cons, forall_eq_or_imp]
    refine ⟨by omega, ⟨by omega, h2⟩, ?_⟩
    rcases h3 with h | h
    · rcases Int.le_total x a with h' | h' <;> omega
    · exact .inr (.inr h)

/-- The skew is above a limit where some two travels differ by more than it (R70). -/
theorem skewOf_iff (l : List Int) (k : Int) (hl : l ≠ []) : k < skewOf l ↔ ∃ x ∈ l, ∃ y ∈ l, k < x - y := by
  cases l with
  | nil => exact absurd rfl hl
  | cons a as =>
    obtain ⟨a1, a2, a3⟩ := foldl_max_spec as a
    obtain ⟨b1, b2, b3⟩ := foldl_min_spec as a
    simp only [skewOf]
    refine ⟨fun h => ⟨_, ?_, _, ?_, h⟩, fun ⟨x, hx, y, hy, h⟩ => ?_⟩
    · rcases a3 with h | h <;> simp [h]
    · rcases b3 with h | h <;> simp [h]
    · have hx' : x ≤ as.foldl max a := by rcases List.mem_cons.1 hx with rfl | hx; exacts [a1, a2 _ hx]
      have hy' : as.foldl min a ≤ y := by rcases List.mem_cons.1 hy with rfl | hy; exacts [b1, b2 _ hy]
      omega

/-- What `liftTest` can do in LIFT with the START sample there (R70). -/
theorem liftTest_spec {s : State} {st : Stroke} {a : Sample} (h1 : s.ssq.phase = .lift) (h2 : s.ssq.stroke = some st)
    (h3 : st.startSample = some a) : liftTested (travelsNow a s.msq.table) st s (liftTest s).ssq := by
  simp only [liftTest, h1, h2, h3, liftTravels_now]
  have hne : 3 ≤ (travelsNow a s.msq.table).length → travelsNow a s.msq.table ≠ [] := by
    intro h e; rw [e] at h; exact absurd h (by decide)
  refine ⟨fun h => ?_, fun h => ?_⟩
  · simp [liftEnd, h, leaveLift, liftOff, h2, liftEnded, withFault]
  · have hk := skewOf_iff _ s.srs.active.skewLimit (hne h)
    have hl := Nat.not_lt.2 h
    refine ⟨fun hs => ?_, fun hs => ?_⟩
    · simp [liftEnd, hl, hk.2 hs, leaveLift, liftOff, h2, liftEnded, withFault]
    · have hs' : ¬ s.srs.active.skewLimit < skewOf (travelsNow a s.msq.table) := fun hh => by
        obtain ⟨x, hx, y, hy, hxy⟩ := hk.1 hh
        have := hs x hx y hy
        omega
      refine ⟨fun S hS hT => ?_, fun hT => ?_⟩
      · have : targetReached s.srs.active.valveOverrun st (travelsNow a s.msq.table) = true := by
          simpa [targetReached, hS] using hT
        simp [liftEnd, hl, hs', this, leaveLift, liftOff, h2, liftEnded, withRiseEnd]
      · have : targetReached s.srs.active.valveOverrun st (travelsNow a s.msq.table) = false := by
          simp only [targetReached]
          split
          · next S hS => have := hT S hS; simp; omega
          · rfl
        simp [liftEnd, hl, hs', this]

/-! ### RELEASE (R73) -/

/-- Every good jack reads 30 or less, as R73 words it. -/
theorem jacksRetracted_iff (t : ChanTable) :
    jacksRetracted t = true ↔ ∀ e ∈ [t.j1, t.j2, t.j3, t.j4], e.state = .good → ∀ v, e.value = some v → v ≤ 30 := by
  simp only [jacksRetracted, jackEntries, List.all_eq_true]
  refine forall_congr' fun e => forall_congr' fun _ => ?_
  cases e.value <;> simp [isGood, Decidable.imp_iff_not_or]
  grind

/-- The jacks are home, as R73 words it. -/
theorem jacksHome_iff (pRest : Int) (t : ChanTable) : jacksHome pRest t = true ↔ homeNow pRest t := by
  simp only [homeNow, ← jacksRetracted_iff, jacksHome]
  split
  · next h1 h2 => simp [h1, h2]
  · next h1 => simp [h1, jackEntries, isGood]
  · next h1 h2 =>
    simp only [Bool.false_eq_true, false_iff]
    rintro ⟨⟨ha, v, hv, -⟩ | h, -⟩ <;> simp_all

/-! ### SETTLE (R74) -/

/-- A cut is not applied from TOPDWELL on (R78). -/
theorem cutStroke_calm {s : State} (h1 : s.ssq.phase ≠ .pressurize) (h2 : s.ssq.phase ≠ .lift) : cutStroke s = s := by
  cases h : s.ssq.phase <;> simp_all [cutStroke]

/-- A SAFE cause leaves SSQ and MSQ alone where no cut is applied (R78). -/
theorem addSafe_calm (c : SafeCause) {s : State} (h1 : s.ssq.phase ≠ .pressurize) (h2 : s.ssq.phase ≠ .lift) :
    (addSafe c s).ssq = s.ssq ∧ (addSafe c s).msq = s.msq := by
  have h := cutStroke_calm (s := s.setMct { s.mct with safe := safePut s.mct.safe c true }) h1 h2
  simp only [addSafe, h]
  (repeat' split) <;> simp

/-- A frame shift keeps what is not height. -/
@[simp] theorem frameShiftTo_kept (h : Int) (v : Bool) (s : State) :
    (frameShiftTo h v s).ssq.phase = s.ssq.phase ∧ (frameShiftTo h v s).ssq.stroke = s.ssq.stroke ∧
    (frameShiftTo h v s).ssq.releaseOn = s.ssq.releaseOn ∧ (frameShiftTo h v s).ssq.strokeCount = s.ssq.strokeCount ∧
    (frameShiftTo h v s).ssq.history = s.ssq.history := by
  simp only [frameShiftTo]
  split <;> simp

/-- The laser correction keeps what is not height. -/
@[simp] theorem laserCorrect_kept (s : State) :
    (laserCorrect s).ssq.phase = s.ssq.phase ∧ (laserCorrect s).ssq.stroke = s.ssq.stroke ∧
    (laserCorrect s).ssq.releaseOn = s.ssq.releaseOn ∧ (laserCorrect s).ssq.strokeCount = s.ssq.strokeCount ∧
    (laserCorrect s).ssq.history = s.ssq.history := by
  simp only [laserCorrect]
  (repeat' split) <;> simp

/-- The laser correction of a completion keeps what is not height. -/
@[simp] theorem settleLaser_kept (st : Stroke) (s : State) :
    (settleLaser st s).2.ssq.phase = s.ssq.phase ∧ (settleLaser st s).2.ssq.stroke = s.ssq.stroke ∧
    (settleLaser st s).2.ssq.releaseOn = s.ssq.releaseOn ∧ (settleLaser st s).2.ssq.strokeCount = s.ssq.strokeCount ∧
    (settleLaser st s).2.ssq.history = s.ssq.history := by
  simp only [settleLaser]
  split <;> simp

/-- A climb keeps what is not height. -/
@[simp] theorem climbBy_kept (d : Int) (s : State) :
    (climbBy d s).ssq.phase = s.ssq.phase ∧ (climbBy d s).ssq.stroke = s.ssq.stroke ∧
    (climbBy d s).ssq.releaseOn = s.ssq.releaseOn ∧ (climbBy d s).ssq.strokeCount = s.ssq.strokeCount ∧
    (climbBy d s).ssq.history = s.ssq.history := by
  simp [climbBy]

/-- A stroke's report leaves SSQ and MSQ alone from TOPDWELL on. -/
theorem reportOutcome_calm (st : Stroke) {s : State} (h1 : s.ssq.phase ≠ .pressurize) (h2 : s.ssq.phase ≠ .lift) :
    (reportOutcome st s).ssq = s.ssq ∧ (reportOutcome st s).msq = s.msq := by
  simp only [reportOutcome, reportFaults]
  split
  · simp
  · split
    · exact addSafe_calm .strokeRepeat
        (s := s.setMct { s.mct with window := joinWindow st.faults.length s.mct.window }) h1 h2
    · simp

/-- The laser correction writes own height, its two marks and the column alone. -/
theorem laserCorrect_eq {s : State} (hv : s.ssq.heightValid = true) : laserCorrect s =
    (s.setSsq
      { s.ssq with
        height := (laserCorrect s).ssq.height, heightLimit := (laserCorrect s).ssq.heightLimit
        laserDisagree := (laserCorrect s).ssq.laserDisagree }).setLco (laserCorrect s).lco := by
  simp only [laserCorrect, frameShiftTo]
  (repeat' split) <;> simp only [State.setSsq, State.setLco, ← hv]

/-- So does the laser correction of a completion. -/
theorem settleLaser_eq (st : Stroke) (s : State) : (settleLaser st s).2 =
    (s.setSsq
      { s.ssq with
        height := (settleLaser st s).2.ssq.height, heightLimit := (settleLaser st s).2.ssq.heightLimit
        laserDisagree := (settleLaser st s).2.ssq.laserDisagree }).setLco (settleLaser st s).2.lco := by
  simp only [settleLaser]
  split
  · next hv => exact laserCorrect_eq hv
  · rfl

/-- Own height and the column after the laser correction of a completion: as they were with none recorded, shifted by the one recorded
(R74, R81, R82; log entry 15). -/
theorem settleLaser_height {st : Stroke} (s : State) (hl : st.laser = none) :
    ((settleLaser st s).1.laser = none →
      (settleLaser st s).2.ssq.height = s.ssq.height ∧ (settleLaser st s).2.lco = s.lco) ∧
    ∀ k, (settleLaser st s).1.laser = some k → 0 ≤ s.ssq.height → s.ssq.height ≤ 1000000 →
      (settleLaser st s).2.ssq.height = s.ssq.height + k ∧
        (settleLaser st s).2.lco = if k = 0 then s.lco else shiftColumn k (s.ssq.height + k) s.lco := by
  simp only [settleLaser]
  split
  case isFalse => exact ⟨fun _ => ⟨rfl, rfl⟩, fun k h => by simp [hl] at h⟩
  case isTrue =>
    refine ⟨fun h => ?_, fun k h h0 h1 => ?_⟩
    · simp only [laserCorrect]
      split
      · exact ⟨rfl, rfl⟩
      · rw [show laserStep s = none from h]; exact ⟨rfl, rfl⟩
    · have h' : laserStep s = some k := h
      simp only [laserStep, Option.bind_eq_some_iff] at h
      obtain ⟨x, hx, hk⟩ := h
      split at hk
      case isFalse => simp at hk
      case isTrue =>
        obtain rfl : Int.tdiv (x - s.ssq.height) 4 = k := by simpa using hk
        have hb : 0 ≤ x ∧ x ≤ 1000000 := by
          simp only [laserHeight] at hx
          (repeat' split at hx) <;> simp only [Option.some.injEq, reduceCtorEq, clamp, maxHeight] at hx
          omega
        have hc : clamp 0 maxHeight (s.ssq.height + Int.tdiv (x - s.ssq.height) 4) =
            s.ssq.height + Int.tdiv (x - s.ssq.height) 4 := by
          have hq : ∀ y : Int, (0 ≤ y → 0 ≤ Int.tdiv y 4 ∧ Int.tdiv y 4 ≤ y) ∧ (y ≤ 0 → y ≤ Int.tdiv y 4 ∧ Int.tdiv y 4 ≤ 0) := by
            intro y
            have e := Int.tdiv_eq_ediv (a := y) (b := 4)
            rw [show Int.sign 4 = 1 from rfl] at e
            split at e <;> omega
          have := hq (x - s.ssq.height)
          simp only [clamp, maxHeight]; omega
        simp only [laserCorrect, hx, h', frameShiftTo, hc, State.setSsq_lco, State.setSsq_ssq,
          show s.ssq.height + Int.tdiv (x - s.ssq.height) 4 - s.ssq.height = Int.tdiv (x - s.ssq.height) 4 by omega]
        split <;> exact ⟨rfl, rfl⟩

/-- What the completion of a stroke leaves of SSQ's phase and stroke and of MSQ (R74). -/
theorem completeSettle_kept (st : Stroke) {s : State} (h1 : s.ssq.phase ≠ .pressurize) (h2 : s.ssq.phase ≠ .lift) :
    (completeSettle st s).ssq.phase = .idle ∧ (completeSettle st s).ssq.stroke = none ∧
    (completeSettle st s).ssq.releaseOn = s.ssq.releaseOn ∧
    (completeSettle st s).ssq.strokeCount = (s.ssq.strokeCount + 1) % 256 ∧ (completeSettle st s).msq = s.msq ∧
    (completeSettle st s).mct.settling = false := by
  refine ⟨?_, ?_, ?_, ?_, ?_, ?_⟩ <;> simp only [completeSettle, requestLevel, State.setMct_ssq, State.setSsq_ssq,
    State.setMct_msq, State.setSsq_msq, State.setLif_ssq, State.setLif_msq, State.setMct_mct]
  · rw [(reportOutcome_calm _ (by simpa using h1) (by simpa using h2)).1]; simp
  · rw [(reportOutcome_calm _ (by simpa using h1) (by simpa using h2)).1]; simp
  · rw [(reportOutcome_calm _ (by simpa using h1) (by simpa using h2)).2]; simp

end Sys2Proof.Machine
end

