-- ==== Sys2Proof/Laws/Shown.lean ====
section
/-! SUPPORT. The bytes that READ, STATUS and a LEVEL post show, said once each in the terms of Safety.lean. -/

namespace Sys2Proof.Machine

/-- The sum of the weights present, weight by weight. -/
@[simp] theorem weights_nil : weights [] = 0 := rfl

@[simp] theorem weights_cons (b : Bool) (w : Nat) (rest : List (Bool × Nat)) :
    weights ((b, w) :: rest) = bit b w + weights rest := by simp [weights, bit]

/-- The mode, gate and pour numbers. -/
theorem modeCode_eq (m : Mode) : modeCode m = modeNumber m := by cases m <;> rfl

/-- The hold set's byte (R159). -/
theorem holdCode_eq (h : HoldSet) : holdCode h = holdSum h := by simp [holdCode, holdSum, Nat.add_assoc]

theorem gatePourCode_eq (g : GateState) (p : PourState) : gatePourCode g p = gatePourNumber g p := by
  cases g <;> cases p <;> rfl

/-- The own record is the content of R43. -/
theorem ownRecord_eq (s : State) : ownRecord s = levelNow s := by
  have h : ownNeed s = (levelNow s).need := by cases hp : s.fct.pour <;> simp [ownNeed, levelNow, hp]
  simp only [ownRecord, h]
  rfl

/-- The ten bytes of a LEVEL post (R157). -/
theorem levelPayload_eq (p : LevelPost) : levelPayload p = levelBytes p := by
  simp [levelPayload, levelBytes, modeCode_eq, gatePourCode_eq, levelFlagsCode, Nat.add_assoc]

/-- A layer record's parts (R160). -/
theorem layerFields_shown {part : Byte} (h : part.toNat ≤ 1) (r : Layer) : LayerShown part.toNat r (layerFields part r) := by
  refine ⟨fun h0 => ?_, fun h1 => ?_⟩
  · have : part = 0 := BitVec.eq_of_toNat_eq h0
    subst this
    cases hs : r.state <;> simp [layerFields, layerFlagsCode, layerStateCode, hs, Nat.add_assoc]
  · have : part = 1 := BitVec.eq_of_toNat_eq h1
    subst this
    simp [layerFields]

/-- A peer entry's parts (R160). -/
theorem peerPart_shown {part : Byte} (h : part.toNat ≤ 1) (s : State) (p : Peer) :
    PeerShown part.toNat s p (peerPart part s p) := by
  refine ⟨fun h0 => ?_, fun h1 => ?_⟩
  · have : part = 0 := BitVec.eq_of_toNat_eq h0
    subst this
    refine ⟨clashes (ownStation s) (sectorOf s.srs.active) s.pvw.peers p, by simp [clashes], ?_⟩
    simp [peerPart, peerFlagsCode, modeCode_eq, gatePourCode_eq, isLive, Nat.add_assoc]
  · have : part = 1 := BitVec.eq_of_toNat_eq h1
    subst this
    refine ⟨fun c hc => by simp [peerPart, claimFields, hc], fun hc => ⟨(Config.freeBits 16 s.freeCount).extractLsb' 8 8,
      (Config.freeBits 16 s.freeCount).extractLsb' 0 8, Config.freeBits 8 s.freeCount, ?_⟩⟩
    simp [peerPart, claimFields, hc]

/-- A stroke history record's parts (R160). -/
theorem strokeFields_shown {part : Byte} (h : part.toNat ≤ 1) (r : HistoryRec) :
    StrokeShown part.toNat r (strokeFields part r) := by
  refine ⟨fun h0 => ?_, fun h1 => ?_⟩
  · have : part = 0 := BitVec.eq_of_toNat_eq h0
    subst this
    cases hc : r.cause <;> simp [strokeFields, endCauseCode, hc]
  · have : part = 1 := BitVec.eq_of_toNat_eq h1
    subst this
    simp [strokeFields, Nat.add_assoc]

/-- What a READ shows of the record at a position below the collection's size (R182). -/
theorem recordFields_shown {c : Collection} {position : Nat} {part : Byte} {s : State} {fields : List Byte}
    (h : part.toNat ≤ 1) (hf : recordFields c position part s = some fields) :
    RecordShown c position part.toNat s fields := by
  cases c <;> simp only [recordFields, Option.map_eq_some_iff] at hf <;> obtain ⟨r, hr, rfl⟩ := hf
  · exact ⟨r, hr, layerFields_shown h r⟩
  · exact ⟨r, hr, peerPart_shown h s r⟩
  · exact ⟨r, hr, strokeFields_shown h r⟩

theorem channelNumber_eq (e : ChanEntry) : chanStateCode e.state = channelNumber e := by
  cases h : e.state <;> simp [chanStateCode, channelNumber, h]

theorem safeCode_eq (f : SafeSet) : safeCode f = safeSum f := by simp [safeCode, safeSum, Nat.add_assoc]

theorem capCode_eq (r : CplRecord) : capCode r = capNumber r := by
  simp only [capCode, capNumber]
  split <;> simp_all

theorem safeSum_restored (r : Option SafeSet) : safeSum (r.getD noSafe) = (r.map safeSum).getD 0 := by cases r <;> rfl

/-- The two bytes of the last halt heard. -/
theorem lastHaltBytes_some (h : LastHalt) :
    lastHaltBytes (some h) =
      [byteOf h.sender,
        byteOf
          ((match h.post.kind with | .climb => 1 | .all => 2) * 16 +
            match h.post.reason with
            | .spread => 1
            | .strokeRepeat => 2
            | .overpressure => 3
            | .valve => 4
            | .sectorClash => 5
            | .estop => 6)] := by
  rcases h with ⟨_, ⟨kind, reason⟩, _⟩
  cases kind <;> cases reason <;> rfl

/-- A flag's weight is the weight or nothing. -/
theorem bit_eq (b : Bool) (w : Nat) : bit b w = w * if b then 1 else 0 := by cases b <;> simp [bit]

/-- What STATUS shows of a page (R160). -/
theorem statusPage_shown {page : Nat} {s : State} {fields : List Byte} (h : statusPage page s = some fields) :
    PageShown page s fields := by
  simp only [statusPage] at h
  split at h <;> simp only [Option.some.injEq, reduceCtorEq] at h <;> subst h
  · simp only [PageShown, page0, modeCode_eq, holdCode_eq, safeCode_eq, safeSum_restored, statusMarks, gatePourCode_eq,
      weights_cons, weights_nil, Nat.add_zero, Nat.add_assoc]
    cases s.srs.loadResult <;> cases s.mct.lastHalt <;> simp only [lastHaltBytes_some] <;> rfl
  · rfl
  · simp only [PageShown, page2, entriesOf, packed, channelNumber_eq, List.map_cons, List.map_nil, List.foldr_cons,
      List.foldr_nil, bit_eq]
    refine congrArg (· ++ _) (congrArg (· ++ _) (congr (congrArg _ (congrArg _ (congrArg _ ?_))) (congrArg _ (congrArg _ ?_)))) <;>
      ring
  · cases hf : s.cpl.record.form <;>
      simp [PageShown, page3, capCode_eq, formCode, hf, Nat.add_assoc, clamp]
  · simp [PageShown, page4, entriesOf, channelValues]
  · simp [PageShown, page5, entriesOf, channelValues]
  · simp [PageShown, page6, channelValues]
  · refine ⟨minuteBytes s, ?_, fun m hm => by simp [minuteBytes, hm], ?_⟩
    · simp only [minuteBytes]
      split <;> rfl
    · cases hb : s.cpl.record.basis <;> cases hs : s.cpl.record.spreadExceeded <;>
        simp [page7, basisCode, spreadCode, hb, hs]
      all_goals (next b => cases b <;> rfl)
  · simp [PageShown, page8]

end Sys2Proof.Machine
end

