-- ==== Sys2Proof/Laws/Triggers.lean ====
section
/-! SUPPORT. The triggers, the readiness checks and the small tests of the feed and the line, said once each in the terms of
Safety.lean. -/

namespace Sys2Proof.Machine

/-- The readiness checks of a CLIMB order in SETUP (R147). -/
theorem readiness_eq (s : State) : readiness s = notReady s := by
  have h : clashFails s = s.pvw.peers.any fun p =>
        decide
            (min ((p.sector + ringOf s.srs.active - sectorOf s.srs.active % ringOf s.srs.active) % ringOf s.srs.active)
                ((sectorOf s.srs.active + ringOf s.srs.active - p.sector % ringOf s.srs.active) % ringOf s.srs.active) ≤
              6) &&
          (s.pvw.peers.any (fun q => decide (q.station ≠ p.station ∧ q.sector = p.sector)) ||
            decide (ownStation s ≠ 0 ∧ sectorOf s.srs.active = p.sector)) := rfl
  rw [readiness, notReady, h]
  cases s.ssq.heightValid <;> cases s.lco.known <;> simp

/-- A trigger at MSQ (R122, R125, R126). -/
theorem triggerMsq_eq (tag : Tag) (m : Msq) : triggerMsq tag m = triggered tag m := by
  obtain ⟨_, _, _, c, p, _, _⟩ := m
  cases c <;> cases p <;> simp [triggerMsq, triggered]

/-- The start of a stroke with its START trigger (R65, R66, R69, R122, R125, R126). -/
theorem startStroke_spec (k : StrokeKind) (a : Option Int) (s : State) : strokeStarted k a s (startStroke k a s) := by
  simp only [strokeStarted, startStroke, fireTrigger, State.setSsq_msq, triggerMsq_eq]
  cases hc : s.msq.chain <;> cases hp : s.msq.pendingTrigger <;>
    simp [triggerLoss, hc, hp, newStroke, deliverSample, storeSample]
  rfl

/-- The stick mark (R19). -/
theorem stick_eq (k : Int) (l : Lco) : stick k l = sticks k l := by
  simp only [stick, sticks]; cases l.column <;> simp

/-- The sense condition (R129). -/
theorem senseHolds_eq (t : ChanTable) : senseHolds t = senseNow t := by
  simp [senseHolds, senseNow, isFaulted, jackEntries, List.countP_cons, Bool.decide_or]

/-- The bind mark at the feed (R108). -/
theorem raiseBindNeed_spec (s : State) : needRaised s (raiseBindNeed s) := by
  refine ⟨fun h1 h2 h3 => ?_, fun h => by simp only [raiseBindNeed, h, if_false]⟩
  simp only [raiseBindNeed, h1, h2, h3, and_self, if_true, queueGate]
  by_cases h : ownStation s = 0
  · have : ∀ f, ownStation (s.setFct f) = 0 := fun f => h
    rw [if_pos h, if_pos (this _)]; rfl
  · have : ∀ f, ¬ ownStation (s.setFct f) = 0 := fun f => h
    rw [if_neg h, if_neg (this _)]; rfl

/-- The check of a post (R156). -/
theorem crcOf_eq (bytes : List Byte) : crcOf bytes = checkOf bytes := by
  have hf : crcBit = fun (r : BitVec 16) (b : Bool) =>
      if r.getLsbD 15 ≠ b then (r <<< 1) ^^^ (1#16 <<< 15 ||| 1#16 <<< 2 ||| 1#16) else r <<< 1 := by
    funext r b
    have : (1#16 <<< 15 ||| 1#16 <<< 2 ||| 1#16) = 0x8005#16 := by decide
    simp only [crcBit, this, BitVec.msb_eq_getLsbD_last, bne_iff_ne]
  have h1 : (0xFFFF#16) = BitVec.allOnes 16 := by decide
  simp only [crcOf, checkOf, List.foldl_flatMap, h1]
  congr 1
  funext r b
  simp only [crcByte, bitsOf, hf]

end Sys2Proof.Machine
end

