-- ==== Sys2Proof/Laws/Announce.lean ====
section
/-! SUPPORT. What the announcements of a conversion and the end of a chain can do: one lemma for each shared operation, in the terms
of Safety.lean. -/

namespace Sys2Proof.Machine

/-- What the entry to SETTLE can do (R73, R74, R126). -/
theorem enterSettle_spec {s : State} {st : Stroke} (f : Stroke → Stroke) (h : s.ssq.stroke = some st) :
    settleEntered (f st) s (enterSettle f s) := by
  refine ⟨fun hc => ?_, fun h1 h2 done hd => ?_⟩
  · have hl : triggerLoss s.msq = none := by
      simp only [triggerLoss]; rcases hc with hc | hc <;> simp [hc]
    simp [enterSettle, fireTrigger, hl, h, triggerMsq_eq]
  · obtain ⟨c, hc⟩ := Option.ne_none_iff_exists'.1 h1
    obtain ⟨p, hp⟩ := Option.ne_none_iff_exists'.1 h2
    subst hd
    simp [enterSettle, fireTrigger, triggerLoss, hc, hp, h, triggerMsq_eq, deliverSample, storeSample]
    rfl

/-- What the return test of RELEASE can do (R73). -/
theorem releaseTest_spec (s : State) : releaseTested s (releaseTest s) := by
  refine ⟨fun hp hh st since h1 h2 => ?_, fun h => ?_⟩
  · have e : releaseTest s =
        enterSettle (withRelease (elapsedMs s.nowMs (s.ssq.stroke.bind Stroke.releaseEntry) 5000)) s := by
      simp [releaseTest, hp, (jacksHome_iff _ _).2 hh]
    rw [e]
    have := enterSettle_spec (withRelease (elapsedMs s.nowMs (s.ssq.stroke.bind Stroke.releaseEntry) 5000)) h1
    simpa [withRelease, elapsedMs, h1, h2] using this
  · have hn : ¬ (s.ssq.phase = .release ∧ jacksHome s.srs.active.pRest s.msq.table = true) := fun ⟨ha, hb⟩ =>
      h.elim (· ha) (· ((jacksHome_iff _ _).1 hb))
    simp only [releaseTest, hn, if_false]

/-- `liftTest` changes SSQ alone. -/
theorem liftTest_eq (s : State) : liftTest s = s.setSsq (liftTest s).ssq := by
  simp only [liftTest]
  (repeat' split) <;> rfl

/-- Before the START sample is there LIFT's tests are not made (R70). -/
theorem liftTest_early {s : State} {st : Stroke} (h : s.ssq.stroke = some st) (h0 : st.startSample = none) :
    liftTest s = s := by
  simp only [liftTest, h]
  split <;> simp_all

/-- What a jack's result or change of state can do (R70, R73). -/
theorem jackTest_spec (s : State) : jackTested s (jackTest s) := by
  refine ⟨fun hp st hs => ?_, fun hp => ?_⟩
  · have e : jackTest s = liftTest s := by simp [jackTest, hp]
    rw [e]
    exact ⟨fun h0 => liftTest_early hs h0, fun a ha => ⟨_, liftTest_spec hp hs ha, liftTest_eq s⟩⟩
  · cases h : s.ssq.phase
    case lift => exact absurd h hp
    case release => simpa [jackTest, h] using releaseTest_spec s
    all_goals exact ⟨fun hr => by simp [h] at hr, fun _ => by simp [jackTest, h]⟩

/-- What the entry to LIFT can do (R69, R70). -/
theorem enterLift_spec (s : State) : liftEntered s (enterLift s) := by
  intro st begun q hs hb hq
  have e : enterLift s = liftTest (s.setSsq q) := by simp [enterLift, hs, hq, hb]
  have h1 : (s.setSsq q).ssq.phase = .lift := by simp [hq]
  have h2 : (s.setSsq q).ssq.stroke = some begun := by simp [hq]
  rw [e]
  refine ⟨fun h0 => liftTest_early h2 (by simp [hb, h0]), fun a ha => ?_⟩
  exact ⟨_, liftTest_spec h1 h2 (by simp [hb, ha]), liftTest_eq _⟩

/-- What the phase's own test of a good PRES result can do (R69, R73). -/
theorem pressurePhase_spec (v : Int) (s : State) : pressureTested v s (pressurePhase v s) := by
  refine ⟨fun hp hv => ?_, fun hp hv => ?_, fun hp => ?_⟩
  · simpa [pressurePhase, hp, hv] using enterLift_spec s
  · simp [pressurePhase, hp, Int.not_le.2 hv]
  · cases h : s.ssq.phase
    case pressurize => exact absurd h hp
    case release => simpa [pressurePhase, h] using releaseTest_spec s
    all_goals exact ⟨fun hr => by simp [h] at hr, fun _ => by simp [pressurePhase, h]⟩

/-! ### The overpressure limit through a stroke's completion (R79, R197) -/

/-- Of the active settings a calibration's outcome changes the full stroke alone (R197). -/
theorem calibrationOutcome_active (st : Stroke) (r : Srs) :
    (calibrationOutcome st r).active = { r.active with fullStroke := (calibrationOutcome st r).active.fullStroke } := by
  simp only [calibrationOutcome, calibrationSuccess, askWrite, beginWrite]
  (repeat' split) <;> rfl

/-- The completion of a stroke leaves P_over. -/
@[simp] theorem completeSettle_pOver (st : Stroke) (s : State) :
    (completeSettle st s).srs.active.pOver = s.srs.active.pOver := by
  have h : ∀ (st : Stroke) (s : State), (reportOutcome st s).srs.active.pOver = s.srs.active.pOver := by
    intro st s
    simp only [reportOutcome]
    split
    · simp only [State.setSrs_srs]; rw [calibrationOutcome_active]
    · simp
  simp [completeSettle, requestLevel, h]

@[simp] theorem fireTrigger_pOver (tag : Tag) (s : State) : (fireTrigger tag s).srs.active.pOver = s.srs.active.pOver := by
  simp only [fireTrigger, deliverSample]
  (repeat' split) <;> simp

@[simp] theorem releaseTest_pOver (s : State) : (releaseTest s).srs.active.pOver = s.srs.active.pOver := by
  simp only [releaseTest, enterSettle]
  split <;> simp

@[simp] theorem pressurePhase_pOver (v : Int) (s : State) : (pressurePhase v s).srs.active.pOver = s.srs.active.pOver := by
  simp only [pressurePhase]
  (repeat' split) <;> simp

/-! ### The announcements (R130) -/

/-- What a good PRES result can do at SSQ (R69, R73, R79). -/
theorem pressureResult_spec (v : Int) (s : State) : pressureTaken v s (pressureResult v s) := by
  refine ⟨_, pressurePhase_spec v s, fun h => ?_, fun h => ?_⟩
  · simp only [pressureResult, overpressureTest, pressurePhase_pOver, h, if_true]
    exact addSafe_spec .overpressure _
  · simp only [pressureResult, overpressureTest, pressurePhase_pOver, Int.not_lt.2 h, if_false]

/-- What the test of the sense condition can do (R129). -/
theorem senseTest_spec (s : State) : senseTested s (senseTest s) := by
  refine ⟨fun h => by simp [senseTest, senseHolds_eq, h], fun h => ?_⟩
  simp only [senseTest, senseHolds_eq, h, if_false]
  cases hn : senseNow s.msq.table
  · exact removeHold_spec .sense _
  · exact addHold_finishes .sense rfl _

/-- What a good FILL result can do at FCT (R101, R108, R109). -/
theorem fillTest_spec {v : Int} {s : State} (h : fillGap s = v) : fillTested v s (fillTest s) := by
  refine ⟨fun hp => ?_, fun hp => ?_, fun hp => ⟨fun hv => ?_, fun hv => ?_⟩, fun hp => ?_⟩
  · simpa [fillTest, hp] using testDry_spec s hp
  · simp only [fillTest, hp, h]; rfl
  · have e : fillTest s = endPour .fillReached (s.setFct s.fct) := by simp [fillTest, hp, h, hv]; rfl
    exact e ▸ endPour_spec .fillReached s.fct s
  · simp [fillTest, hp, h, Int.not_le.2 hv]
  · rcases hp with hp | hp | hp <;> simp [fillTest, hp]

/-- What a good FILL result can do at LCO (R6, R22). -/
theorem fillReading_spec (v : Int) (s : State) :
    fillTaken v s (fillReading s.ssq.height s.srs.active.formHeight v s.lco) := by
  refine ⟨fun hk => ⟨fun h => ?_, fun older r hc hr hx => ?_⟩, fun hk hc => ⟨fun h => ?_, fun h => ?_⟩⟩
  · have e : (s.lco.column.map fun r =>
        if r.state = .pouring then { r with top := max r.top (candidateTop s.ssq.height s.srs.active.formHeight v) } else r) =
        s.lco.column.map id := List.map_congr_left fun r hr => by simp [h r hr]
    simp only [fillReading, hk, if_true, raiseTop, e, List.map_id]
    rw [← hk]
  · have e : (older.map fun r =>
        if r.state = .pouring then { r with top := max r.top (candidateTop s.ssq.height s.srs.active.formHeight v) } else r) =
        older.map id := List.map_congr_left fun r hr => by simp [hx r hr]
    simp only [fillReading, hk, if_true, raiseTop, hc, List.map_append, e, List.map_id, List.map_cons, hr, List.map_nil]
    rfl
  · have : ¬ s.ssq.height < candidateTop s.ssq.height s.srs.active.formHeight v := Int.not_lt.2 h
    simp [fillReading, hk, makeKnown, this]
  · have : s.ssq.height < candidateTop s.ssq.height s.srs.active.formHeight v := h
    have ha : allocatedId s.lco = s.lco.nextId := by simp [allocatedId, hc, freeIdFrom]
    simp [fillReading, hk, makeKnown, this, hc, syntheticLayer, ha]
    rfl

/-- What a good result can do at its readers (R130). -/
theorem announceResult_spec {c : Channel} {v : Int} {s : State} (h : c = .fill → fillGap s = v) :
    resultTaken c v s (announceResult c v s) := by
  cases c <;> refine ⟨?_, ?_, ?_, ?_⟩ <;> intro hc <;> try simp [isJack, isJackOrPres] at hc
  case fill.refine_3 => exact ⟨_, fillReading_spec v s, fillTest_spec (h rfl)⟩
  case pres.refine_2 => exact pressureResult_spec v s
  all_goals first | exact jackTest_spec s | exact fun _ => rfl | exact fun h => absurd rfl h

/-- What a change of a channel's state can do at its readers (R130). -/
theorem announceChange_spec (c : Channel) (s : State) : changeTaken c s (announceChange c s) := by
  cases c <;> refine ⟨?_, ?_, ?_, ?_⟩ <;> intro hc <;> try simp [isJack, isJackOrPres] at hc
  case fill.refine_3 => exact reportBlock_spec s
  case pres.refine_2 => exact ⟨_, releaseTest_spec s, senseTest_spec _⟩
  all_goals first | exact ⟨_, jackTest_spec s, senseTest_spec _⟩ | exact fun _ => rfl | exact fun h => absurd rfl h

/-- What a chain's end (R123 to R125). -/
theorem finishChain_spec (s : State) : chainEnded s (finishChain s) := by
  refine ⟨fun h => ?_, fun ch hc hn => ?_⟩
  · simp only [finishChain, chainDelivery]
    cases hc : s.msq.chain with
    | none => rfl
    | some ch => simp [Nat.not_le.2 (h ch hc)]
  · have e : finishChain s = (deliverSample ch.tag (sampleOf ch.done) s).setMsq
        (chainCompleted (deliverSample ch.tag (sampleOf ch.done) s).msq) := by
      simp [finishChain, chainDelivery, hc, hn]
    refine ⟨_, e.trans (congrArg _ ?_), fun h => ?_, fun ht hp => ⟨fun h0 => ?_, fun st done h1 h2 => ?_⟩⟩
    · simp only [chainCompleted]; split <;> simp_all
    · cases hs : s.ssq.stroke with
      | none => simp [deliverSample, hs, sampleStored]; rw [← hs]; rfl
      | some st => simp only [deliverSample, hs, h, if_false]; cases ch.tag <;> simp [sampleStored, storeSample, hs]
    · simp [deliverSample, h0]
    · simp [deliverSample, h1, ht, hp, storeSample, h2]

end Sys2Proof.Machine
end

