-- ==== Sys2Proof/Laws/Column.lean ====
section
/-! SUPPORT. What LCO's release pass, frame shift and end request can do, said once each in the terms of Safety.lean. -/

namespace Sys2Proof.Machine

/-- The removals of the release pass part the records at the first that stays (R9). -/
theorem dropReleased_parts (own : Int) (col : List Layer) :
    ∃ gone, col = gone ++ dropReleased own col ∧ (∀ r ∈ gone, r.state ≠ .pouring ∧ r.top ≤ own) ∧
      ∀ r rest, dropReleased own col = r :: rest → r.state = .pouring ∨ own < r.top := by
  induction col with
  | nil => exact ⟨[], rfl, by simp, by simp [dropReleased]⟩
  | cons x xs ih =>
    obtain ⟨gone, h1, h2, h3⟩ := ih
    by_cases h : x.state ≠ .pouring ∧ x.top ≤ own
    · refine ⟨x :: gone, ?_, ?_, ?_⟩
      · simp only [dropReleased, h, if_true, ne_eq, not_false_eq_true, and_self, List.cons_append, ← h1]
      · simpa [h.1, h.2] using h2
      · simpa only [dropReleased, h, if_true, ne_eq, not_false_eq_true, and_self] using h3
    · have e : dropReleased own (x :: xs) = x :: xs := by simp only [dropReleased, h, if_false]
      refine ⟨[], by simp [e], by simp, fun r rest hr => ?_⟩
      rw [e] at hr
      obtain ⟨rfl, -⟩ := List.cons.inj hr
      by_cases hp : x.state = .pouring
      · exact .inl hp
      · exact .inr (Int.not_le.1 fun hl => h ⟨hp, hl⟩)

/-- What the release pass can do (R9). -/
theorem releasePass_spec (own : Int) (l : Lco) : released own l (releasePass own l) := by
  obtain ⟨gone, h1, h2, h3⟩ := dropReleased_parts own l.column
  refine ⟨gone, _, h1, h2, h3, ?_⟩
  have hn : l.column.length - (dropReleased own l.column).length = gone.length := by
    conv => lhs; arg 1; rw [h1]
    simp
  simp only [releasePass, hn]; rfl

/-- What a frame shift can do (R11). -/
theorem shiftColumn_spec (d own : Int) (l : Lco) : shifted d own l (shiftColumn d own l) := releasePass_spec _ _

/-- What an end request can do while a record is POURING (R7 to R9). -/
theorem endLayer_spec (own lMin : Int) (reason : EndReason) (l : Lco) (older : List Layer) (r : Layer)
    (hc : l.column = older ++ [r]) (hp : r.state = .pouring) :
    (∀ before y, older = before ++ [y] → (∃ d, l.depthRef = some d ∧ r.top - d < lMin) →
      released own { l with column := before ++ [endedInto own reason l.pourSeconds r (some y)], depthRef := none }
        (endLayer own lMin reason l)) ∧
    ((older = [] ∨ ¬ ∃ d, l.depthRef = some d ∧ r.top - d < lMin) →
      released own { l with column := older ++ [endedInto own reason l.pourSeconds r none], depthRef := none }
        (endLayer own lMin reason l)) := by
  have e : endLayer own lMin reason l =
      releasePass own { l with column := endedColumn own lMin reason l older r, depthRef := none } := by
    simp [endLayer, youngest, hc, hp]
  have ht : isThin lMin l.depthRef r = true ↔ ∃ d, l.depthRef = some d ∧ r.top - d < lMin := by
    cases h : l.depthRef <;> simp [isThin]
  rw [e]
  refine ⟨fun before y ho hd => ?_, fun hd => ?_⟩
  · have h : endedColumn own lMin reason l older r = before ++ [endedInto own reason l.pourSeconds r (some y)] := by
      simp only [endedColumn, ho, List.getLast?_append, List.getLast?_singleton, ht.2 hd, if_true,
        List.dropLast_concat]
      rfl
    rw [h]; exact releasePass_spec _ _
  · have h : endedColumn own lMin reason l older r = older ++ [endedInto own reason l.pourSeconds r none] := by
      rcases hd with rfl | hd
      · rfl
      · have h : isThin lMin l.depthRef r = false := by rw [← Bool.not_eq_true, ht]; exact hd
        cases hg : older.getLast? with
        | none => rw [List.getLast?_eq_none_iff.1 hg]; rfl
        | some _ => simp only [endedColumn, hg, h]; rfl
    rw [h]; exact releasePass_spec _ _

end Sys2Proof.Machine
end

