-- ==== Sys2Proof/Laws/Line.lean ====
section
/-! SUPPORT. What LIF's receiver, its quiet time and its return from MUTE can do, when the stored block's check agrees, what the
writes of the stored block keep, and what step 4 of a start can do: one lemma for each, which a proof cites instead of the
definition. -/

namespace Sys2Proof.Machine

/-! ### The receiver after a framing error (R161) -/

theorem hears_iff (l : Lif) : hears l = true ↔ l.rx ≠ .errored := by simp [hears]

/-- The end of a framing error's wait touches no count of time. -/
@[simp] theorem errorPassed_quietUs (bitUs : Nat) (l : Lif) : (errorPassed bitUs l).quietUs = l.quietUs := by
  unfold errorPassed
  split <;> rfl

/-- After a framing error nothing is taken; the traffic alone is heard. -/
@[simp] theorem receiveLine_errored {l : Lif} (h : l.rx = .errored) (own : Nat) (v : Verdict) :
    receiveLine own v l = trafficEnded l := by
  simp [receiveLine, hears, h]

/-- After a framing error no second one is counted. -/
theorem framingErrorLine_errored {l : Lif} (h : l.rx = .errored) (bitUs quiet : Nat) :
    framingErrorLine bitUs quiet l = errorPassed bitUs { l with quietUs := quiet * bitUs, byteLeftUs := 0 } := by
  simp [framingErrorLine, hears, h]

/-- A framing error that a byte shows leaves what a complete post judged as one leaves. -/
theorem receiveLine_framing (own bitUs : Nat) (l : Lif) : receiveLine own .framing l = framingErrorLine bitUs 0 l := by
  simp [framingErrorLine, receiveLine, trafficEnded, judgedLine, errorPassed]

/-- A framing error leaves the quiet time that its command reports (R155). -/
@[simp] theorem framingErrorLine_quietUs (bitUs quiet : Nat) (l : Lif) :
    (framingErrorLine bitUs quiet l).quietUs = quiet * bitUs := by
  simp [framingErrorLine]

/-- The receiver waits for more than 3 quiet bit times after a framing error, and not after a gap of more than 3 (R161). -/
theorem framingErrorLine_rx {bitUs : Nat} (hb : 0 < bitUs) (quiet : Nat) {l : Lif} (h : l.rx ≠ .errored) :
    (framingErrorLine bitUs quiet l).rx = if 3 < quiet then .ready else .errored := by
  have hr : (countFraming l).rx = .errored := by simp only [countFraming, rejoinRestart]; split <;> rfl
  simp only [framingErrorLine, (hears_iff l).2 h, if_true, errorPassed, hr, Nat.mul_div_cancel _ hb, true_and]
  split <;> simp_all

@[simp] theorem receiveLine_quietUs (own : Nat) (v : Verdict) (l : Lif) : (receiveLine own v l).quietUs = 0 := rfl

/-- Quiet time passing touches the receiver alone, and that only from a framing error's wait to the next post's. -/
theorem errorPassed_cases (bitUs : Nat) (l : Lif) :
    errorPassed bitUs l = l ∨ (l.rx = .errored ∧ 3 < l.quietUs / bitUs ∧ errorPassed bitUs l = { l with rx := .ready }) := by
  unfold errorPassed
  split
  · next h => exact .inr ⟨h.1, h.2, rfl⟩
  · exact .inl rfl

/-- While this node sends, a report of quiet time changes nothing (R155). -/
@[simp] theorem quietReported_sending {l : Lif} (h : l.transmitter.isSome = true) (bitUs quiet : Nat) :
    quietReported bitUs quiet l = l := by
  simp [quietReported, h]

/-! ### The return from MUTE (R172) -/

theorem rejoinDue_iff (l : Lif) : rejoinDue l = true ↔ l.muted = true ∧ 4000 ≤ l.rejoinMs ∧ 8 ≤ l.rejoinCount := by
  simp [rejoinDue, and_assoc]

/-- Out of MUTE, or before its moment, nothing is left. -/
@[simp] theorem leaveIfDue_early {s : State} (h : rejoinDue s.lif = false) : leaveIfDue s = s := by
  simp [leaveIfDue, h]

/-- An error restarts the rejoin timer, so it never completes the rejoin. -/
theorem rejoinDue_countFraming (l : Lif) : rejoinDue (countFraming l) = false := by
  by_cases h : l.muted = true <;> simp [rejoinDue, countFraming, rejoinRestart, h]

theorem rejoinDue_countCheck (l : Lif) : rejoinDue (countCheck l) = false := by
  by_cases h : l.muted = true <;> simp [rejoinDue, countCheck, rejoinRestart, h]

/-! ### The stored block's check (R191, R195) -/

@[simp] theorem withNumeral_eq {α : Type} (n : Nat) (f : Nat → α) : withNumeral n f = f n := by cases n <;> rfl

theorem crcFrom_eq (r : BitVec 16) (bytes : List Byte) : crcFrom r bytes = bytes.foldl crcByte r := by
  induction bytes generalizing r with
  | nil => rfl
  | cons b rest ih => simp [crcFrom, ih]

/-- The stored block's check is the post check of its bytes. -/
theorem settingCheck_eq (c : Settings) : settingCheck c = crcOf (settingBytes c) := crcFrom_eq _ _

/-- A completed write leaves a check that agrees. -/
@[simp] theorem writtenBlock_agrees (c : Settings) : (writtenBlock c).checkAgrees = true := by
  simp [writtenBlock, StoredBlock.checkAgrees]

/-- A write cut short leaves one that does not, whatever it left. -/
@[simp] theorem tornBlock_disagrees (n : Nat) : (tornBlock n).checkAgrees = false := by
  refine decide_eq_false fun h => ?_
  simp only [tornBlock] at h
  have hk : (if Config.tornCheck n = 0 then 1 else Config.tornCheck n) = (0 : BitVec 16) := by
    have h2 := congrArg (settingCheck (tornSettings n) ^^^ ·) h
    simpa [← BitVec.xor_assoc] using h2
  split at hk
  · exact absurd hk (by decide)
  · next hn => exact hn hk

/-! ### The writes of the stored block (R195, R198) -/

@[simp] theorem beginWrite_fields (w : BlockWrite) (r : Srs) :
    (beginWrite w r).write = some w ∧ (beginWrite w r).stored = none ∧ (beginWrite w r).writesWaiting = r.writesWaiting ∧
      (beginWrite w r).life = r.life ∧ (beginWrite w r).active = r.active ∧ (beginWrite w r).staged = r.staged := by
  simp [beginWrite]

/-- A write asked for keeps the writes in order. -/
theorem askWrite_keeps {r : Srs} (w : BlockWrite) (h : WritesInOrder r) (hu : r.life = .up) :
    WritesInOrder (askWrite w r) := by
  cases hw : r.write with
  | none => exact ⟨by simp [askWrite, hw], by simp [askWrite, hw], by simp [askWrite, hw, hu]⟩
  | some v =>
    have hs : r.stored = none := h.absent.2 (by simp [hw])
    exact ⟨by simp [askWrite, hw, hs], by simp [askWrite, hw], by simp [askWrite, hw, hu]⟩

/-- The end of a write keeps them in order: the block is there again, unless the next write begins. -/
theorem writeCompleted_keeps {r : Srs} (w : BlockWrite) (hu : r.life = .up) : WritesInOrder (writeCompleted w r) := by
  cases hq : r.writesWaiting <;>
    exact ⟨by simp [writeCompleted, hq], by simp [writeCompleted, hq], by simp [writeCompleted, hq, hu]⟩

/-- So does the loss of the supply, after which no write is in progress. -/
theorem tearWrite_keeps {s : State} (h : WritesInOrder s.srs) :
    WritesInOrder (tearWrite s).srs ∧ (tearWrite s).srs.write = none := by
  cases hw : s.srs.write with
  | none => simpa [tearWrite, hw] using h
  | some v => exact ⟨⟨by simp [tearWrite, hw], by simp [tearWrite, hw], by simp [tearWrite, hw]⟩, by simp [tearWrite, hw]⟩

/-! ### Step 4 of a start (R188, R196, R200) -/

/-- Everything the step can do: wait for the pass, ask for the calibration stroke, or begin the join listen. -/
theorem calibrationStep_cases (s : State) :
    (blocksRun s = true ∧ s.msq.passDone = false ∧ calibrationStep s = s) ∨
    (blocksRun s = true ∧ s.msq.passDone = true ∧ calibratesAtStart s = true ∧
      calibrationStep s = startStroke .calibration none (s.setSrs { s.srs with step := .calibrating })) ∨
    ((blocksRun s = false ∨ (s.msq.passDone = true ∧ calibratesAtStart s = false)) ∧ calibrationStep s = beginListen s) := by
  cases hb : blocksRun s <;> cases hp : s.msq.passDone <;> cases hc : calibratesAtStart s <;>
    simp [calibrationStep, decideStart, hb, hp, hc]

end Sys2Proof.Machine
end

