-- ==== Sys2Proof/Laws/PerInstr.lean ====
section
/-! SUPPORT. What every command's form promises, constructor by constructor: a well-formed order command fits an ORDER post. -/

namespace Sys2Proof.Laws.OrderForm

/-- An order that is well formed has argument bytes that fit an ORDER post (R156), and its sender and target are station numbers that
their bytes carry whole. -/
def Statement (i : Instr) : Prop :=
  i.wellFormed = true → ∀ (sender target : Nat) (code : Byte) (args : List Byte),
    Machine.orderParts i = some (sender, target, code, args) →
      args.length ≤ 10 ∧ sender ≤ 63 ∧ target ≤ 63 ∧ (Machine.byteOf target).toNat = target

/-- The byte of a station number carries it whole. -/
theorem target_kept {target : Nat} (h : target ≤ 63) : (Machine.byteOf target).toNat = target := by
  simp [Machine.byteOf]; omega

/-- The statement of an order of fixed length, from its two stations. -/
theorem of_stations {i : Instr} {s t : Nat} {c : Byte} {a : List Byte} (hw : i.wellFormed = true → stationsFit s t = true)
    (hp : Machine.orderParts i = some (s, t, c, a)) (ha : a.length ≤ 10) : Statement i := by
  intro h sender target code args hq
  rw [hp] at hq
  cases hq
  have hf := hw h
  simp only [stationsFit, stationFits, Bool.and_eq_true, decide_eq_true_eq] at hf
  exact ⟨ha, hf.1, hf.2, target_kept hf.2⟩

/-- The statement of a command that is no order. -/
theorem of_none {i : Instr} (hp : Machine.orderParts i = none) : Statement i := by
  intro _ sender target code args hq
  rw [hp] at hq
  cases hq

theorem climb (sender target : Nat) : Statement (.climb sender target) :=
  of_stations id rfl (Nat.le_of_ble_eq_true rfl)

theorem hold (sender target : Nat) : Statement (.hold sender target) :=
  of_stations id rfl (Nat.le_of_ble_eq_true rfl)

theorem setup (sender target : Nat) : Statement (.setup sender target) :=
  of_stations id rfl (Nat.le_of_ble_eq_true rfl)

theorem clear (sender target : Nat) : Statement (.clear sender target) :=
  of_stations id rfl (Nat.le_of_ble_eq_true rfl)

theorem trimUp (sender target : Nat) : Statement (.trimUp sender target) :=
  of_stations id rfl (Nat.le_of_ble_eq_true rfl)

theorem trimDown (sender target : Nat) : Statement (.trimDown sender target) :=
  of_stations id rfl (Nat.le_of_ble_eq_true rfl)

theorem trimSet (sender target : Nat) (value : BitVec 8) : Statement (.trimSet sender target value) :=
  of_stations id rfl (Nat.le_of_ble_eq_true rfl)

theorem heightSet (sender target : Nat) (value : BitVec 24) : Statement (.heightSet sender target value) :=
  of_stations id rfl (Nat.le_of_ble_eq_true rfl)

theorem heightAdopt (sender target : Nat) : Statement (.heightAdopt sender target) :=
  of_stations id rfl (Nat.le_of_ble_eq_true rfl)

theorem planeSet (sender target : Nat) (value : BitVec 24) : Statement (.planeSet sender target value) :=
  of_stations id rfl (Nat.le_of_ble_eq_true rfl)

theorem planeWithdraw (sender target : Nat) : Statement (.planeWithdraw sender target) :=
  of_stations id rfl (Nat.le_of_ble_eq_true rfl)

theorem window (sender target : Nat) (collection first last : Byte) : Statement (.window sender target collection first last) :=
  of_stations id rfl (Nat.le_of_ble_eq_true rfl)

theorem read (sender target : Nat) (part : Byte) : Statement (.read sender target part) :=
  of_stations id rfl (Nat.le_of_ble_eq_true rfl)

theorem amendBegin (sender target : Nat) : Statement (.amendBegin sender target) :=
  of_stations id rfl (Nat.le_of_ble_eq_true rfl)

theorem amend (sender target : Nat) (maturity : BitVec 24) : Statement (.amend sender target maturity) :=
  of_stations id rfl (Nat.le_of_ble_eq_true rfl)

theorem setting (sender target : Nat) (field : Byte) (value : BitVec 32) : Statement (.setting sender target field value) :=
  of_stations id rfl (Nat.le_of_ble_eq_true rfl)

theorem defaults (sender target : Nat) : Statement (.defaults sender target) :=
  of_stations id rfl (Nat.le_of_ble_eq_true rfl)

theorem store (sender target : Nat) : Statement (.store sender target) :=
  of_stations id rfl (Nat.le_of_ble_eq_true rfl)

theorem calibrate (sender target : Nat) : Statement (.calibrate sender target) :=
  of_stations id rfl (Nat.le_of_ble_eq_true rfl)

theorem restart (sender target : Nat) : Statement (.restart sender target) :=
  of_stations id rfl (Nat.le_of_ble_eq_true rfl)

theorem status (sender target : Nat) (page : Byte) : Statement (.status sender target page) :=
  of_stations id rfl (Nat.le_of_ble_eq_true rfl)

theorem orderInvalid (sender target : Nat) (code : Byte) (args : List Byte) : Statement (.orderInvalid sender target code args) := by
  intro h
  have hf : stationsFit sender target = true ∧ argsFit args = true := by
    simp only [Instr.wellFormed, Bool.and_eq_true] at h
    exact h.1
  exact of_stations (fun _ => hf.1) rfl (by simpa [argsFit] using hf.2) h

theorem orderWhileStoring (sender target : Nat) (code : Byte) (args : List Byte) : Statement (.orderWhileStoring sender target code args) := by
  intro h
  have hf : stationsFit sender target = true ∧ argsFit args = true := by
    simpa only [Instr.wellFormed, Bool.and_eq_true] using h
  exact of_stations (fun _ => hf.1) rfl (by simpa [argsFit] using hf.2) h

theorem postReceived (bytes : List Byte) : Statement (.postReceived bytes) :=
  of_none rfl

theorem framingError (quiet : Nat) : Statement (.framingError quiet) :=
  of_none rfl

theorem levelTaken (sender : Nat) (post : LevelPost) : Statement (.levelTaken sender post) :=
  of_none rfl

theorem claimTaken (sender : Nat) (post : ClaimPost) : Statement (.claimTaken sender post) :=
  of_none rfl

theorem gateTaken (sender : Nat) (post : GatePost) : Statement (.gateTaken sender post) :=
  of_none rfl

theorem haltTaken (sender : Nat) (post : HaltPost) : Statement (.haltTaken sender post) :=
  of_none rfl

theorem claimLapse (station : Nat) : Statement (.claimLapse station) :=
  of_none rfl

theorem peerStale (station : Nat) : Statement (.peerStale station) :=
  of_none rfl

theorem peerDrop (station : Nat) : Statement (.peerDrop station) :=
  of_none rfl

theorem access (quiet : Nat) : Statement (.access quiet) :=
  of_none rfl

theorem garble : Statement (.garble) :=
  of_none rfl

theorem postSent : Statement (.postSent) :=
  of_none rfl

theorem muteLeave : Statement (.muteLeave) :=
  of_none rfl

theorem levelTimer : Statement (.levelTimer) :=
  of_none rfl

theorem joinListenEnd : Statement (.joinListenEnd) :=
  of_none rfl

theorem tick : Statement (.tick) :=
  of_none rfl

theorem pourDurationCount : Statement (.pourDurationCount) :=
  of_none rfl

theorem cycleExpiry : Statement (.cycleExpiry) :=
  of_none rfl

theorem rampPeriod : Statement (.rampPeriod) :=
  of_none rfl

theorem pressurizeTimeout : Statement (.pressurizeTimeout) :=
  of_none rfl

theorem liftTimeout : Statement (.liftTimeout) :=
  of_none rfl

theorem topLimitCapture : Statement (.topLimitCapture) :=
  of_none rfl

theorem topTrigger : Statement (.topTrigger) :=
  of_none rfl

theorem topdwellEnd : Statement (.topdwellEnd) :=
  of_none rfl

theorem releaseTimeout : Statement (.releaseTimeout) :=
  of_none rfl

theorem coilCheck (coil : Coil) (isOpen : Bool) : Statement (.coilCheck coil isOpen) :=
  of_none rfl

theorem conversionComplete (raw : BitVec 12) : Statement (.conversionComplete raw) :=
  of_none rfl

theorem beamPresentChange (on : Bool) : Statement (.beamPresentChange on) :=
  of_none rfl

theorem gateOpenLimit (on : Bool) : Statement (.gateOpenLimit on) :=
  of_none rfl

theorem gateClosedLimit (on : Bool) : Statement (.gateClosedLimit on) :=
  of_none rfl

theorem gateTravelTimeout : Statement (.gateTravelTimeout) :=
  of_none rfl

theorem settleDecision : Statement (.settleDecision) :=
  of_none rfl

theorem backoffEnd : Statement (.backoffEnd) :=
  of_none rfl

theorem pourTimerSecond : Statement (.pourTimerSecond) :=
  of_none rfl

theorem estopChange (active : Bool) : Statement (.estopChange active) :=
  of_none rfl

theorem keyChange (contacts : KeyContacts) : Statement (.keyChange contacts) :=
  of_none rfl

theorem storeWriteDone : Statement (.storeWriteDone) :=
  of_none rfl

theorem powerFail (holdUp : Bool) : Statement (.powerFail holdUp) :=
  of_none rfl

theorem outageMinute : Statement (.outageMinute) :=
  of_none rfl

theorem retentionLost : Statement (.retentionLost) :=
  of_none rfl

theorem start (inputs : StartInputs) (heard : List StartEvent) : Statement (.start inputs heard) :=
  of_none rfl

theorem startCalibrationStep : Statement (.startCalibrationStep) :=
  of_none rfl

theorem blinkPhase (fast : Bool) : Statement (.blinkPhase fast) :=
  of_none rfl

theorem startBit (quiet : Nat) : Statement (.startBit quiet) :=
  of_none rfl

end Sys2Proof.Laws.OrderForm
end

