-- ==== Sys2Proof/Laws/Posts.lean ====
section
/-! SUPPORT. What a post's payload is read as: one lemma for a kind and a length that R156 allows, one for those that it does not. -/

namespace Sys2Proof.Machine

/-! ### The bytes and the codes of a payload (R157) -/

theorem byteOf_toNat (a : Byte) : byteOf (a.toNat : Nat) = a := by
  apply BitVec.eq_of_toNat_eq
  simp [byteOf]

theorem beBytes_two (a b : Byte) : beBytes 2 (beValue [a, b] : Nat) = [a, b] := by
  have ha := a.isLt
  have hb := b.isLt
  simp only [beBytes, beValue, List.foldl_cons, List.foldl_nil, byteOf]
  simp [List.range_succ]
  constructor <;> apply BitVec.eq_of_toNat_eq <;> simp <;> omega

theorem beBytes_three (a b c : Byte) : beBytes 3 (beValue [a, b, c] : Nat) = [a, b, c] := by
  have ha := a.isLt
  have hb := b.isLt
  have hc := c.isLt
  simp only [beBytes, beValue, List.foldl_cons, List.foldl_nil, byteOf]
  simp [List.range_succ]
  refine ⟨?_, ?_, ?_⟩ <;> apply BitVec.eq_of_toNat_eq <;> simp <;> omega

theorem gateOfCode_spec (n : Nat) :
    (4 < n → gateOfCode n = none) ∧ (n ≤ 4 → ∃ g, gateOfCode n = some g ∧ gateCode g = n) :=
  ⟨fun h => match n, h with | _ + 5, _ => rfl, fun h => by interval_cases n <;> exact ⟨_, rfl, rfl⟩⟩

theorem pourOfCode_spec (n : Nat) :
    (5 < n → pourOfCode n = none) ∧ (n ≤ 5 → ∃ p, pourOfCode n = some p ∧ pourCode p = n) :=
  ⟨fun h => match n, h with | _ + 6, _ => rfl, fun h => by interval_cases n <;> exact ⟨_, rfl, rfl⟩⟩

theorem modeOfCode_spec (n : Nat) :
    (3 < n → modeOfCode n = none) ∧ (n ≤ 3 → ∃ m, modeOfCode n = some m ∧ modeCode m = n) :=
  ⟨fun h => match n, h with | _ + 4, _ => rfl, fun h => by interval_cases n <;> exact ⟨_, rfl, rfl⟩⟩

theorem haltKindOfCode_spec (n : Nat) :
    (n = 0 ∨ 2 < n → haltKindOfCode n = none) ∧
      (1 ≤ n → n ≤ 2 → ∃ k, haltKindOfCode n = some k ∧ haltKindCode k = n) :=
  ⟨fun h => match n, h with | 0, _ => rfl | _ + 3, _ => rfl, fun h h' => by interval_cases n <;> exact ⟨_, rfl, rfl⟩⟩

theorem haltReasonOfCode_spec (n : Nat) :
    (n = 0 ∨ 6 < n → haltReasonOfCode n = none) ∧
      (1 ≤ n → n ≤ 6 → ∃ r, haltReasonOfCode n = some r ∧ haltReasonCode r = n) :=
  ⟨fun h => match n, h with | 0, _ => rfl | _ + 7, _ => rfl, fun h h' => by interval_cases n <;> exact ⟨_, rfl, rfl⟩⟩

/-- The six flags of a LEVEL post keep their byte. -/
theorem levelFlags_code (f : Byte) (h : f.toNat ≤ 63) : byteOf (levelFlagsCode (levelFlagsOf f) : Nat) = f := by
  have all : ∀ n : Fin 64, byteOf (levelFlagsCode (levelFlagsOf (BitVec.ofNat 8 n)) : Nat) = BitVec.ofNat 8 n := by
    decide +kernel
  simpa using all ⟨f.toNat, by omega⟩

/-- The yielded mark of a GATE post keeps its byte. -/
theorem yielded_code (y : Byte) (h : y.toNat ≤ 1) : byteOf (if y.getLsbD 0 = true then 1 else 0 : Int) = y := by
  have all : ∀ n : Fin 2, byteOf (if (BitVec.ofNat 8 n).getLsbD 0 = true then 1 else 0 : Int) = BitVec.ofNat 8 n := by decide
  simpa using all ⟨y.toNat, by omega⟩

/-! ### The body of a post (R156, R157, R162) -/

/-- A payload is read as no body where a field is outside its range, and else as a body of its kind that carries it. -/
def BodyRead (kind : Nat) (payload : List Byte) : Prop :=
  (FieldsOutside kind payload → bodyOf kind payload = none) ∧
  (¬ FieldsOutside kind payload →
    ∃ body, bodyOf kind payload = some body ∧ kindNumber body = kind ∧ payloadOf body = payload ∧ body.fits = true)

theorem bodyOf_level (sec mode flags h2 h1 h0 count gp n1 n0 : Byte) :
    BodyRead 1 [sec, mode, flags, h2, h1, h0, count, gp, n1, n0] := by
  have v3 : beValue [h2, h1, h0] = h2.toNat * 65536 + h1.toNat * 256 + h0.toNat := by simp [beValue]; omega
  have v2 : beValue [n1, n0] = n1.toNat * 256 + n0.toNat := by simp [beValue]
  refine ⟨fun hf => ?_, fun hf => ?_⟩
  · simp only [FieldsOutside] at hf
    simp only [bodyOf, levelOfPayload, Option.map_eq_none_iff]
    split
    · next m g p e1 e2 e3 =>
      have a1 := (modeOfCode_spec mode.toNat).1
      have a2 := (gateOfCode_spec (gp.toNat / 16)).1
      have a3 := (pourOfCode_spec (gp.toNat % 16)).1
      rw [e1] at a1
      rw [e2] at a2
      rw [e3] at a3
      simp at a1 a2 a3
      rw [if_neg]
      omega
    · rfl
  · simp only [FieldsOutside, not_or, Nat.not_lt] at hf
    obtain ⟨f1, f2, f3, f4, f5, f6, f7⟩ := hf
    obtain ⟨m, m1, m2⟩ := (modeOfCode_spec mode.toNat).2 f2
    obtain ⟨g, g1, g2⟩ := (gateOfCode_spec _).2 f5
    obtain ⟨p, p1, p2⟩ := (pourOfCode_spec _).2 f6
    refine ⟨.level
      { sector := sec.toNat, mode := m, flags := levelFlagsOf flags, height := beValue [h2, h1, h0]
        strokeCount := count.toNat, gate := g, pour := p, need := beValue [n1, n0] }, ?_, rfl, ?_, ?_⟩
    · simp only [bodyOf, levelOfPayload, m1, g1, p1]
      rw [if_pos (by omega)]
      rfl
    · simp only [payloadOf, levelPayload, m2, gatePourCode, g2, p2, beBytes_two, beBytes_three, levelFlags_code _ f3,
        byteOf_toNat]
      rw [show gp.toNat / 16 * 16 + gp.toNat % 16 = gp.toNat by omega, byteOf_toNat]
      rfl
    · have := count.isLt
      simp [PostBody.fits, LevelPost.fits, needFits, maxHeight]
      omega

theorem bodyOf_claim (n1 n0 number : Byte) : BodyRead 2 [n1, n0, number] := by
  have v2 : beValue [n1, n0] = n1.toNat * 256 + n0.toNat := by simp [beValue]
  refine ⟨fun hf => ?_, fun hf => ?_⟩
  · simp only [FieldsOutside] at hf
    simp only [bodyOf, claimOfPayload, Option.map_eq_none_iff]
    rw [if_neg]
    omega
  · simp only [FieldsOutside, Nat.not_lt] at hf
    refine ⟨.claim { need := beValue [n1, n0], number := number.toNat }, ?_, rfl, ?_, ?_⟩
    · simp only [bodyOf, claimOfPayload]
      rw [if_pos (by omega)]
      rfl
    · simp only [payloadOf, claimPayload, beBytes_two, byteOf_toNat]
      rfl
    · have := number.isLt
      simp [PostBody.fits, ClaimPost.fits, needFits]
      omega

theorem bodyOf_gate (state n1 n0 mark : Byte) : BodyRead 3 [state, n1, n0, mark] := by
  have v2 : beValue [n1, n0] = n1.toNat * 256 + n0.toNat := by simp [beValue]
  refine ⟨fun hf => ?_, fun hf => ?_⟩
  · simp only [FieldsOutside] at hf
    simp only [bodyOf, gateOfPayload, Option.map_eq_none_iff]
    split
    · next e =>
      have a := (gateOfCode_spec state.toNat).1
      rw [e] at a
      simp at a
      rw [if_neg]
      omega
    · rfl
  · simp only [FieldsOutside, not_or, Nat.not_lt] at hf
    obtain ⟨f1, f2, f3⟩ := hf
    obtain ⟨g, g1, g2⟩ := (gateOfCode_spec _).2 f1
    refine ⟨.gate { state := g, needAtOpen := beValue [n1, n0], yielded := mark.getLsbD 0 }, ?_, rfl, ?_, ?_⟩
    · simp only [bodyOf, gateOfPayload, g1]
      rw [if_pos (by omega)]
      rfl
    · simp only [payloadOf, gatePayload, beBytes_two, g2, byteOf_toNat, yielded_code _ f3]
      rfl
    · simp [PostBody.fits, GatePost.fits, needFits]
      omega

theorem bodyOf_halt (kind reason : Byte) : BodyRead 4 [kind, reason] := by
  refine ⟨fun hf => ?_, fun hf => ?_⟩
  · simp only [FieldsOutside] at hf
    simp only [bodyOf, haltOfPayload, Option.map_eq_none_iff]
    split
    · next e1 e2 =>
      have a1 := (haltKindOfCode_spec kind.toNat).1
      have a2 := (haltReasonOfCode_spec reason.toNat).1
      rw [e1] at a1
      rw [e2] at a2
      simp at a1 a2
      omega
    · rfl
  · simp only [FieldsOutside, not_or, Nat.not_lt] at hf
    obtain ⟨k, k1, k2⟩ := (haltKindOfCode_spec kind.toNat).2 (by omega) (by omega)
    obtain ⟨r, r1, r2⟩ := (haltReasonOfCode_spec reason.toNat).2 (by omega) (by omega)
    refine ⟨.halt { kind := k, reason := r }, ?_, rfl, ?_, rfl⟩
    · simp only [bodyOf, haltOfPayload, k1, r1]
      rfl
    · simp only [payloadOf, haltPayload, k2, r2, byteOf_toNat]

/-- What a payload of an allowed kind and length is read as. -/
theorem bodyOf_allowed {kind : Nat} {payload : List Byte} (h : KindAllowed kind payload.length) : BodyRead kind payload := by
  rcases h with ⟨rfl, h⟩ | ⟨rfl, h⟩ | ⟨rfl, h⟩ | ⟨rfl, h⟩ | ⟨rfl, h⟩ | ⟨rfl, h⟩
  · match payload, h with
    | [_, _, _, _, _, _, _, _, _, _], _ => exact bodyOf_level ..
  · match payload, h with
    | [_, _, _], _ => exact bodyOf_claim ..
  · match payload, h with
    | [_, _, _, _], _ => exact bodyOf_gate ..
  · match payload, h with
    | [_, _], _ => exact bodyOf_halt ..
  · refine ⟨fun hf => by simp [FieldsOutside] at hf, fun _ => ⟨.order payload, ?_, rfl, rfl, ?_⟩⟩
    · simp only [bodyOf]
      rw [if_pos (by omega)]
    · simp [PostBody.fits]
      omega
  · refine ⟨fun hf => by simp [FieldsOutside] at hf, fun _ => ⟨.reply payload, ?_, rfl, rfl, ?_⟩⟩
    · simp only [bodyOf]
      rw [if_pos (by omega)]
    · simp [PostBody.fits]
      omega

/-- A kind or a length that is not allowed is read as no body. -/
theorem bodyOf_refused {kind : Nat} {payload : List Byte} (h : ¬ KindAllowed kind payload.length) : bodyOf kind payload = none := by
  simp only [KindAllowed, not_or] at h
  match kind with
  | 0 => rfl
  | 1 => simp only [bodyOf, Option.map_eq_none_iff, levelOfPayload]; split <;> simp_all
  | 2 => simp only [bodyOf, Option.map_eq_none_iff, claimOfPayload]; split <;> simp_all
  | 3 => simp only [bodyOf, Option.map_eq_none_iff, gateOfPayload]; split <;> simp_all
  | 4 => simp only [bodyOf, Option.map_eq_none_iff, haltOfPayload]; split <;> simp_all
  | 5 => simp only [bodyOf]; rw [if_neg]; omega
  | 6 => simp only [bodyOf]; rw [if_neg]; omega
  | _ + 7 => rfl

end Sys2Proof.Machine
end

