-- ==== Sys2Proof/Laws/Search.lean ====
section
/-! SUPPORT. What the neighbour searches and the ring heights of the peer view can be, said once each in the terms of
Safety.lean. -/

namespace Sys2Proof.Machine

/-- An entry qualifies as R41 words it. -/
theorem qualifies_iff {s : State} {p : Peer} (hp : p ∈ s.pvw.peers) :
    qualifies (ownStation s) (sectorOf s.srs.active) s.pvw.peers p = true ↔ Qualifying s p := by
  refine ⟨fun h => ?_, fun h => ?_⟩
  · simp [qualifies, isLive, clashes] at h
    exact ⟨hp, h.1.1, h.1.2, h.2.1, by have := h.2.2; omega⟩
  · have h1 := h.live
    have h2 := h.valid
    have h3 := h.peers
    have h4 := h.own
    simp only [qualifies, isLive, clashes, h2, Bool.and_true, Bool.and_eq_true, decide_eq_true_eq, h1, true_and,
      Bool.not_eq_true', Bool.or_eq_false_iff, List.any_eq_false, decide_eq_false_iff_not, not_and]
    exact ⟨fun q hq hs => h3 q hq hs, fun hn he => by omega⟩

/-- The qualifying entry of a sector, where it holds one. -/
theorem qualifyingIn_some {s : State} {n : Nat} {p : Peer}
    (h : qualifyingIn (ownStation s) (sectorOf s.srs.active) s.pvw.peers n = some p) : Qualifying s p ∧ p.sector = n := by
  have hm := List.mem_of_find?_eq_some h
  have := List.find?_some h
  simp only [Bool.and_eq_true, decide_eq_true_eq, qualifies_iff hm] at this
  exact ⟨this.2, this.1⟩

/-- No qualifying entry stands in a sector where none is found. -/
theorem qualifyingIn_none {s : State} {n : Nat}
    (h : qualifyingIn (ownStation s) (sectorOf s.srs.active) s.pvw.peers n = none) {q : Peer} (hq : Qualifying s q) :
    q.sector ≠ n := fun e => by
  have := List.find?_eq_none.1 h q hq.entry
  simp [e, (qualifies_iff hq.entry).2 hq] at this

/-- The distances of a search are those up to min(6, N − 1), nearest first. -/
theorem searchDistances_get {ring i : Nat} (h : i < (searchDistances ring).length) : (searchDistances ring)[i] = i + 1 := by
  simp [searchDistances]

theorem mem_searchDistances {ring d : Nat} : d ∈ searchDistances ring ↔ 1 ≤ d ∧ d ≤ 6 ∧ d < ring := by
  simp only [searchDistances, List.mem_map, List.mem_range]
  refine ⟨fun ⟨a, h1, h2⟩ => by omega, fun h => ⟨d - 1, by omega, by omega⟩⟩

/-- What a search over the distances finds, or that it finds nothing (R41). -/
theorem search_some {sectorAt : Nat → Nat} {s : State} {p : Peer}
    (h : ((searchDistances (ringOf s.srs.active)).findSome? fun d =>
      qualifyingIn (ownStation s) (sectorOf s.srs.active) s.pvw.peers (sectorAt d)) = some p) : FoundBy sectorAt s p := by
  obtain ⟨l1, d, l2, hl, hd, hn⟩ := List.findSome?_eq_some_iff.1 h
  obtain ⟨hq, hs⟩ := qualifyingIn_some hd
  have hmem : d ∈ searchDistances (ringOf s.srs.active) := by rw [hl]; simp
  have hb := mem_searchDistances.1 hmem
  refine ⟨d, hb.1, hb.2.1, hb.2.2, hq, hs, fun k hk1 hk2 q hqq => qualifyingIn_none (hn k ?_) hqq⟩
  have hlen : l1.length < (searchDistances (ringOf s.srs.active)).length := by rw [hl]; simp
  have hdi : (searchDistances (ringOf s.srs.active))[l1.length] = d := by
    have : (searchDistances (ringOf s.srs.active))[l1.length]? = some d := by rw [hl]; simp
    exact (List.getElem?_eq_some_iff.1 this).2
  rw [searchDistances_get hlen] at hdi
  have hki : k - 1 < l1.length := by omega
  have hk : (searchDistances (ringOf s.srs.active))[k - 1]? = l1[k - 1]? := by
    rw [hl, List.getElem?_append_left hki]
  rw [List.getElem?_eq_getElem (by omega), List.getElem?_eq_getElem hki, searchDistances_get] at hk
  have : l1[k - 1] = k := by simpa [Nat.sub_add_cancel hk1] using (Option.some.inj hk).symm
  exact this ▸ List.getElem_mem hki

theorem search_none {sectorAt : Nat → Nat} {s : State}
    (h : ((searchDistances (ringOf s.srs.active)).findSome? fun d =>
      qualifyingIn (ownStation s) (sectorOf s.srs.active) s.pvw.peers (sectorAt d)) = none) (p : Peer) :
    ¬ FoundBy sectorAt s p := fun ⟨d, h1, h2, h3, hq, hs, _⟩ =>
  qualifyingIn_none (List.findSome?_eq_none_iff.1 h d (mem_searchDistances.2 ⟨h1, h2, h3⟩)) hq hs

/-- Two entries that one search may find are of one station: a qualifying entry is alone in its sector (R41). -/
theorem foundBy_station {sectorAt : Nat → Nat} {s : State} {p q : Peer} (hp : FoundBy sectorAt s p)
    (hq : FoundBy sectorAt s q) : p.station = q.station := by
  obtain ⟨d, d1, _, _, hpq, hps, hpn⟩ := hp
  obtain ⟨e, e1, _, _, hqq, hqs, hqn⟩ := hq
  have : d = e := by
    rcases Nat.lt_trichotomy d e with h | h | h
    · exact absurd hps (hqn d d1 h p hpq)
    · exact h
    · exact absurd hqs (hpn e e1 h q hqq)
  subst this
  by_contra hne
  exact hpq.peers q hqq.entry (fun h => hne h.symm) (hqs.trans hps.symm)

/-- The answers of the neighbour search (R41). -/
theorem nodeNeighbours_spec (s : State) :
    (∀ a b, nodeNeighbours s = .two a b → FoundLeft s a ∧ FoundRight s b ∧ a.station ≠ b.station) ∧
    (∀ a, nodeNeighbours s = .one a →
      (FoundLeft s a ∧ ∀ b, FoundRight s b → b.station = a.station) ∨ (FoundRight s a ∧ ∀ b, ¬ FoundLeft s b)) ∧
    (nodeNeighbours s = .none → ∀ a, ¬ FoundLeft s a ∧ ¬ FoundRight s a) := by
  simp only [nodeNeighbours, neighbours]
  split
  · next l r hl hr =>
    have fl : FoundLeft s l := search_some hl
    have fr : FoundRight s r := search_some hr
    split
    · next he =>
      refine ⟨by simp, fun a ha => ?_, by simp⟩
      cases ha
      exact .inl ⟨fl, fun b hb => (foundBy_station hb fr).trans he.symm⟩
    · next he =>
      refine ⟨fun a b h => ?_, by simp, by simp⟩
      cases h
      exact ⟨fl, fr, he⟩
  · next l hl hr =>
    refine ⟨by simp, fun a ha => ?_, by simp⟩
    cases ha
    exact .inl ⟨search_some hl, fun b hb => absurd hb (search_none hr b)⟩
  · next r hl hr =>
    refine ⟨by simp, fun a ha => ?_, by simp⟩
    cases ha
    exact .inr ⟨search_some hr, search_none hl⟩
  · next hl hr => exact ⟨by simp, by simp, fun _ a => ⟨search_none hl a, search_none hr a⟩⟩

/-- The heights of the ring statistics (R42). -/
theorem nodeHeights_spec (s : State) :
    ∃ qs : List Peer, qs.Sublist s.pvw.peers ∧ (∀ p ∈ s.pvw.peers, p ∈ qs ↔ Qualifying s p) ∧
      nodeHeights s = qs.map Peer.height ++ (if s.ssq.heightValid then [s.ssq.height] else []) :=
  ⟨_, List.filter_sublist, fun p hp => by simp [hp, qualifies_iff hp], rfl⟩

/-- With a valid own height there is always a reference (R42, R51). -/
theorem currentReference_isSome {s : State} (h : s.ssq.heightValid = true) : (currentReference s).href ≠ none := by
  have hn : nodeHeights s ≠ [] := by simp [nodeHeights, ringHeights, h]
  have hm : meanOf (nodeHeights s) = some ((nodeHeights s).sum / (nodeHeights s).length) := by simp [meanOf, hn]
  simp only [currentReference, referenceOf, hm, h]
  split <;> simp_all
  split <;> simp

end Sys2Proof.Machine
end

