-- ==== Sys2Proof/Tests/Slice0.lean ====
section
/-! SUPPORT. Tests: the well-formedness checks with a term each refuses, the worked sequences of the spec, and for each statement of
the obligations a state and operands that meet its hypotheses. -/

namespace Sys2Proof.Tests

-- One theorem at a time: many kernel evaluations at once take more memory than the check allows.
set_option Elab.async false

open Sys2Proof.Machine

/-! ### Small states -/

/-- The settings of the worked sequences: station 9 in sector 5 of a ring of 16. -/
def ringSettings : Settings := { defaultSettings with station := 9, sector := 5, ringSectors := 16 }

/-- A good entry of the result table. -/
def good (v : Int) : ChanEntry := { value := some v, state := .good, fresh := true, outCount := 0, goodCount := 0 }

/-- Station 9 loaded with good settings and running, in SETUP, its height known and its column known and empty, nothing to pour. -/
def node : State :=
  { State.reset with
    lif := { lifAtStart 9 with access := true, levelMs := some 0 }
    lco := { lcoCold with known := true }
    cpl := { cplCold with cycleMs := some 0 }
    ssq := { ssqCold with height := 152340, heightValid := true }
    msq := { State.reset.msq with table := { State.reset.msq.table with fill := good 400 } }
    fct := { State.reset.fct with blocked := false }
    srs :=
      { State.reset.srs with
        active := ringSettings, staged := ringSettings, stored := some (writtenBlock ringSettings)
        loadResult := .good, checkAgreed := true, calibrationPending := false, step := .running } }

/-- The node with its base RUNNING: in CLIMB. -/
def climbing : State := node.setMct { node.mct with base := .running }

/-- The node in HOLD with OPERATOR. -/
def holding : State := climbing.setMct { climbing.mct with hold := { noHold with operator := true } }

/-- The node in SETUP with the key in SERVICE, where the pour is blocked (R99). -/
def service : State :=
  (node.setMct { node.mct with key := .service, hold := { noHold with key := true } }).setFct { node.fct with blocked := true }

/-- The state a command leaves. -/
def after (c : Instr) (s : State) : State :=
  match exec c s with
  | .next t => t
  | _ => s

/-- The payload of the reply that waits. -/
def replyIn (s : State) : Option (List Byte) := s.lif.replySlot.map Slot.post

/-- A stroke in flight of this allowance, with its START sample. -/
def strokeOf (allowance : Int) : Stroke := newStroke .level (some allowance)

/-- A sample set of four good jacks. -/
def sampleAt (a b c d : Int) : Sample :=
  { j1 := ⟨some a, true⟩, j2 := ⟨some b, true⟩, j3 := ⟨some c, true⟩, j4 := ⟨some d, true⟩, pres := ⟨some 40, true⟩,
    substituted := false }

/-- A layer record. -/
def layer (id : Nat) (state : LayerState) (bottom top : Int) (maturity : Nat) : Layer :=
  { id := id, state := state, bottom := bottom, top := top, maturity := maturity, pourStart := 0,
    duration := if state = .pouring then none else some 200, flags := noLayerFlags }

/-- A peer as a LEVEL post leaves it. -/
def peer (station sector : Nat) (height : Int) (valid : Bool) (mode : Mode) (gate : GateState) (pour : PourState)
    (need : Int) : Peer :=
  { station := station, sector := sector, height := height, heightValid := valid, mode := mode, strokeCount := 0,
    gate := gate, pour := pour, need := need, needAtOpen := none, claim := none, ageMs := 0 }

/-- The peers of spec chapter 2, "Building the table in the join listen". -/
def ringPeers : List Peer :=
  [peer 7 3 152300 true .climb .closed .dry 0, peer 8 4 152410 true .climb .opened .pouring 0,
    { peer 10 6 152380 true .hold .closed .want 2900 with claim := some { need := 2900, number := 41, ageMs := 0 } },
    peer 11 7 150020 false .setup .closed .dry 0, peer 13 9 152382 true .climb .closed .dry 0]

/-- The node with those peers. -/
def withPeers (s : State) : State := s.setPvw { s.pvw with peers := ringPeers }

/-- The content of a LEVEL post. -/
def levelPost (sector : Nat) (height : Int) (gate : GateState) (pour : PourState) : LevelPost :=
  { sector := sector, mode := .climb
    flags :=
      { heightValid := true, bind := false, settling := false, channelFault := false, laserDisagree := false,
        heightLimit := false }
    height := height, strokeCount := 1, gate := gate, pour := pour, need := 0 }

/-! ### Well-formedness: a term each check refuses -/

theorem wf_refuses_sender : (Instr.climb 64 9).wellFormed = false := by decide

theorem wf_refuses_target : (Instr.status 20 64 0).wellFormed = false := by decide

theorem wf_refuses_long_order : (Instr.orderWhileStoring 20 9 1 (List.replicate 11 0)).wellFormed = false := by decide

theorem wf_refuses_valid_as_invalid : (Instr.orderInvalid 20 9 1 []).wellFormed = false := by decide

theorem wf_refuses_sector : (Instr.levelTaken 7 (levelPost 48 0 .closed .dry)).wellFormed = false := by decide

theorem wf_refuses_height : (Instr.levelTaken 7 (levelPost 3 1000001 .closed .dry)).wellFormed = false := by decide

theorem wf_refuses_count :
    (Instr.levelTaken 7 { levelPost 3 0 .closed .dry with strokeCount := 256 }).wellFormed = false := by decide

theorem wf_refuses_need : (Instr.gateTaken 7 { state := .opened, needAtOpen := 15001, yielded := false }).wellFormed = false := by
  decide

theorem wf_refuses_claim_number : (Instr.claimTaken 7 { need := 0, number := 256 }).wellFormed = false := by decide

theorem wf_refuses_short_post : (PostBody.order [9]).fits = false ∧ (PostBody.reply [9, 1]).fits = false := by decide

theorem wf_accepts : (Instr.orderInvalid 20 9 99 []).wellFormed = true ∧ (Instr.climb 63 63).wellFormed = true := by decide

/-! ### The worked sequences of the spec -/

/-- Chapter 6, "Scaling". -/
theorem test_scaling :
    scaledValue .t2 2048 = 200 ∧ scaledValue .j3 2048 = 300 ∧ scaledValue .pres 1243 = 1213 ∧
      scaledValue .fill 1000 = 3662 ∧ scaledValue .beam 1847 = -50 ∧ rawInRange .j1 12 = false ∧
      rawInRange .t4 70 = false := by
  decide

/-- Chapter 6, "A FILL fault during a pour", passes 2 to 13. -/
theorem test_fill_fault :
    let after (raws : List Nat) := raws.foldl (fun e r => entryAfter .fill r e) (good 3662)
    after [4080, 4095, 990] = good 3625 ∧
      after [4080, 4095, 990, 4095, 4095, 4095] =
        { value := some 3625, state := .faulted, fresh := false, outCount := 3, goodCount := 0 } ∧
      after [4080, 4095, 990, 4095, 4095, 4095, 985, 980, 4095, 985, 980, 975] = good 3570 := by
  decide

/-- The column of chapter 1, "A pour on an existing column", at minute 8,412 with the POURING record's top at 162,240. -/
def pouringColumn : List Layer :=
  [layer 201 .exiting 151800 153100 124600, layer 202 .placed 153100 154600 96300, layer 203 .placed 154600 156200 61800,
    layer 204 .placed 156200 158000 33100, layer 205 .placed 158000 159700 12450, layer 206 .pouring 159700 162240 0]

/-- The node of that sequence. -/
def pouringNode : State :=
  (node.setLco { node.lco with column := pouringColumn, runClock := 8412, nextId := 207, depthRef := some 159700 }).setMsq
    { node.msq with
      table := { node.msq.table with t1 := good 92, t2 := good 118, t3 := good 146, t4 := good 171 } }

theorem test_tick :
    (after .tick pouringNode).lco.column.map Layer.maturity = [124871, 96571, 62046, 33346, 12668, 218] ∧
      (after .tick pouringNode).lco.runClock = 8413 := by
  decide +kernel

theorem test_pour_duration_count : (after .pourDurationCount pouringNode).lco.pourSeconds = 1 := by decide +kernel

/-- Chapter 1: the FILL readings of the pour, its end after 212 s, and the release cap before and after. -/
theorem test_pour_end :
    let l :=
      endLayer 152340 300 .fillReached
        { (raiseTop 152340 12000 480 pouringNode.lco) with pourSeconds := 212 }
    ctop 152340 l = 163860 ∧ crel 90000 152340 l = some 2260 ∧ stick 180000 l = false ∧ l.releaseTotal = 0 ∧
      l.column.getLast?.map (fun r => (r.id, r.state, r.duration)) = some (206, .placed, some 212) ∧
      (raiseTop 152340 12000 2400 pouringNode.lco).column.getLast?.map Layer.top = some 162240 := by
  decide +kernel

/-- Chapter 1, "A climb that releases a layer". -/
theorem test_release :
    let l : Lco :=
      { lcoCold with
        releaseTotal := 37
        column :=
          [layer 201 .exiting 151800 153100 138020, layer 202 .placed 153100 154600 110180,
            layer 203 .placed 154600 156200 76540] }
    (releasePass 153040 l).column = l.column ∧
      (releasePass 153150 l).column.map (fun r => (r.id, r.state)) = [(202, .exiting), (203, .placed)] ∧
      (releasePass 153150 l).releaseTotal = 38 ∧ crel 90000 153150 (releasePass 153150 l) = some 1450 := by
  decide +kernel

/-- Chapter 1, "A thin pour" and "A pour on a full column". -/
theorem test_thin_pour :
    let l : Lco :=
      { lcoCold with
        depthRef := some 171900
        column := [layer 213 .placed 168000 170400 88400, layer 214 .placed 170400 171900 5120,
          layer 215 .pouring 171900 172120 0] }
    (endLayer 160000 300 .blocked l).column.getLast?.map (fun r => (r.id, r.top, r.maturity, r.flags.merged)) =
        some (214, 172120, 0, true) ∧
      (endLayer 160000 300 .blocked l).releaseTotal = 0 := by
  decide +kernel

/-- The column of twelve records of "A pour on a full column", from id 219. -/
def fullColumn : List Layer :=
  (List.range 11).map (fun i => layer (219 + i) .placed (165000 + 1500 * i) (166500 + 1500 * i) 20000) ++
    [layer 230 .placed 181500 183000 14400]

theorem test_full_column :
    let l := openLayer 160000 { lcoCold with column := fullColumn, runClock := 9906, nextId := 231 }
    l.column.length = 12 ∧ l.nextId = 231 ∧ l.depthRef = none ∧
      l.column.getLast?.map (fun r => (r.id, r.state, r.maturity, r.flags.merged)) = some (230, .pouring, 0, true) ∧
      l.column.getLast?.map (fun r => (r.pourStart, r.duration)) = some (9906, none) := by
  decide +kernel

/-- Chapter 2, "Building the table in the join listen": neighbours, mean, minimum and open count. -/
theorem test_ring_answers :
    nodeNeighbours (withPeers node) =
        .two (peer 8 4 152410 true .climb .opened .pouring 0)
          { peer 10 6 152380 true .hold .closed .want 2900 with claim := some { need := 2900, number := 41, ageMs := 0 } } ∧
      meanOf (nodeHeights (withPeers node)) = some 152362 ∧ minOf (nodeHeights (withPeers node)) = some 152300 ∧
      openCount ringPeers = 1 := by
  decide +kernel

/-- Chapter 2, "A node goes silent": the entry of station 8 stale, then dropped. -/
theorem test_peer_stale :
    let s := after (.peerStale 8) (withPeers node)
    meanOf (nodeHeights s) = some 152350 ∧
      (match nodeNeighbours s with
        | .two a b => decide (a.station = 7 ∧ b.station = 10)
        | _ => false) = true := by
  decide +kernel

theorem test_peer_drop : openCount (after (.peerDrop 8) (withPeers node)).pvw.peers = 0 := by decide +kernel

theorem test_claim_lapse : ((after (.claimLapse 10) (withPeers node)).pvw.peers.map Peer.claim) = [none, none, none, none, none] := by
  decide +kernel

/-- Chapter 2, "A sector clash". -/
theorem test_sector_clash :
    (after (.levelTaken 14 (levelPost 5 152340 .closed .dry)) (withPeers climbing)).mct.safe.sectorClash = true ∧
      (after (.levelTaken 14 (levelPost 8 152340 .closed .dry)) (withPeers climbing)).mct.safe.sectorClash = false := by
  decide +kernel

/-- Chapter 2: a CLAIM from a station with no entry is discarded. -/
theorem test_claim_without_entry :
    (after (.claimTaken 22 { need := 3100, number := 5 }) (withPeers node)).pvw.peers = ringPeers ∧
      ((after (.claimTaken 13 { need := 3100, number := 5 }) (withPeers node)).pvw.peers.map Peer.claim).getLast? =
        some (some { need := 3100, number := 5, ageMs := 0 }) := by
  decide +kernel

/-- The column of chapter 3, "An ordinary LEVEL expiry". -/
def levelColumn : List Layer :=
  [layer 311 .exiting 151200 152520 71200, layer 312 .placed 152520 155900 38400, layer 313 .placed 155900 159300 12050,
    layer 314 .placed 159300 162100 2210]

/-- The node of that case. -/
def levelNode : State :=
  (((withPeers climbing).setLco { climbing.lco with column := levelColumn }).setSrs
    { climbing.srs with active := { ringSettings with mRel := 60000, fullStroke := some 480 } }).setCpl
    { climbing.cpl with trim := 2 }

theorem test_level_expiry :
    let r := (after .cycleExpiry levelNode).cpl.record
    (r.form, r.basis, r.bind) = (.level, .twoNeighbours, false) ∧
      [r.href, r.offset, r.error, r.slvl, r.cmax, r.cfill] =
        [some 152378, some 38, some 48, some 186, some 250, some 3760] ∧
      [r.crel, r.clead, r.scap, r.sfloor, r.allowance] = [some 180, some 110, some 110, some 0, some 110] ∧
      (after .cycleExpiry levelNode).ssq.phase = .pressurize := by
  decide +kernel

/-- Chapter 3, "The same node, ahead of the ring". -/
theorem test_null_expiry :
    let r := (after .cycleExpiry (levelNode.setSsq { levelNode.ssq with height := 152470 })).cpl.record
    [r.href, r.error, r.slvl, r.clead, r.scap, r.allowance] =
        [some 152391, some (-69), some 99, some 0, some 0, some 0] ∧
      r.bind = false := by
  decide +kernel

/-- Chapter 4, "A level stroke": the completion of SETTLE. -/
theorem test_settle :
    let st :=
      { strokeOf 110 with
        startSample := some (sampleAt 12 15 10 14), topSample := some (sampleAt 128 131 125 130),
        endSample := some (sampleAt 20 24 18 23), liftDuration := some 2845, releaseDuration := some 2460,
        riseEnd := some .target }
    let s := completeSettle st (climbing.setSsq { climbing.ssq with phase := .settle, stroke := some st, strokeCount := 57 })
    s.ssq.height = 152440 ∧ s.ssq.strokeCount = 58 ∧ s.ssq.phase = .idle ∧ s.mct.window = [0] ∧
      s.ssq.history =
        [{ number := 58, allowance := some 110, climbed := 100, liftMs := 2845, releaseMs := 2460, cause := .target,
           creep := false, substituted := false, laser := none }] := by
  decide +kernel

/-- Chapter 4, "A laser correction at a null cycle", and the plane that is too far off. -/
theorem test_laser :
    let s : State :=
      ((climbing.setSsq { climbing.ssq with height := 162390, plane := some 172000 }).setPins
        { climbing.pins with beamPresent := true }).setMsq
        { climbing.msq with table := { climbing.msq.table with beam := good (-430) } }
    (nullCycle s).ssq.height = 162400 ∧
      (nullCycle (s.setSsq { s.ssq with plane := some 174000 })).ssq.height = 162390 ∧
      (nullCycle (s.setSsq { s.ssq with plane := some 174000 })).ssq.laserDisagree = true := by
  decide +kernel

/-- The node in LIFT since 70 ms, at 1,600 ms. -/
def lifting : State :=
  (climbing.setSsq
    { climbing.ssq with
      phase := .lift, liftEnable := true, dutyWritten := 100, dutyInForce := 100
      stroke := some { strokeOf 140 with startSample := some (sampleAt 10 11 12 10), liftEntry := some 70 } }).setNowMs 1600

/-- Chapter 4, "A stroke cut in LIFT". -/
theorem test_estop_cut :
    let s := after (.estopChange true) lifting
    (s.ssq.phase, s.ssq.liftEnable, s.ssq.stroke.map Stroke.riseEnd, s.ssq.stroke.map Stroke.liftDuration) =
        (.topdwell, false, some (some .cut), some (some 1530)) ∧
      modeOf s.mct = .hold ∧ s.mct.settling = true ∧
      s.lif.haltSlot.map Slot.post = some { kind := .all, reason := .estop } := by
  decide +kernel

/-- Chapter 4, "Two faults in the window". -/
theorem test_stroke_repeat :
    (reportFaults 1 (climbing.setMct { climbing.mct with window := [0, 0, 1, 0, 0, 0, 0, 0, 0, 0] })).mct.safe.strokeRepeat =
        true ∧
      (reportFaults 1 (climbing.setMct { climbing.mct with window := [0, 0, 0, 0, 0, 0, 0, 0, 0, 1] })).mct.safe.strokeRepeat =
        false := by
  decide +kernel

/-- Station 9 of chapter 5, "Three claims, two places", with its claim sent and the claims of stations 10 and 13 heard. -/
def claiming : State :=
  ((climbing.setPvw
    { climbing.pvw with
      peers :=
        [{ peer 10 6 152380 true .climb .closed .claiming 3400 with claim := some { need := 3400, number := 18, ageMs := 0 } },
          { peer 13 9 152382 true .climb .closed .claiming 2900 with
            claim := some { need := 2900, number := 5, ageMs := 0 } }] }).setMsq
    { climbing.msq with table := { climbing.msq.table with fill := good 2900 } }).setFct
    { climbing.fct with
      pour := .claiming, claimNumber := 37, ownClaim := some { need := 2900, number := 37, sent := true } }

theorem test_settle_decision :
    let s := after .settleDecision claiming
    (s.fct.gate, s.fct.pour, s.fct.needAtOpen, s.fct.motor) = (.opening, .pouring, some 2900, .openDrive) ∧
      s.lif.gateSlot.map Slot.post = some { state := .opening, needAtOpen := 2900, yielded := false } ∧
      s.lco.column.map Layer.state = [.pouring] := by
  decide +kernel

/-- Station 13's decision in that sequence: no rival, no place. -/
theorem test_settle_backoff :
    let s :=
      after .settleDecision
        (claiming.setPvw
          { claiming.pvw with
            peers := [peer 9 5 152340 true .climb .opening .pouring 0, peer 10 6 152380 true .climb .opening .pouring 0] })
    (s.fct.pour, s.fct.backoffLength, s.fct.ownClaim) = (.backoff, 2250, none) := by
  decide +kernel

/-- Station 9 of chapter 5, "An oversubscription repaired by yield", before station 10's GATE post. -/
def yielding : State :=
  ((climbing.setPvw
    { climbing.pvw with
      peers :=
        [peer 10 6 152380 true .climb .closed .claiming 3000,
          { peer 13 9 152382 true .climb .opening .pouring 0 with needAtOpen := some 4100 }] }).setFct
    { climbing.fct with gate := .opened, pour := .pouring, needAtOpen := some 2600 }).setPins
    { gateOpenLimit := true, gateClosedLimit := false, beamPresent := false }

theorem test_yield :
    let s := after (.gateTaken 10 { state := .opening, needAtOpen := 3000, yielded := false }) yielding
    (s.fct.gate, s.fct.pour, s.fct.yieldMark, s.fct.pendingBackoff) = (.closing, .ending, true, some 2250) ∧
      s.lif.gateSlot.map Slot.post = some { state := .closing, needAtOpen := 2600, yielded := true } := by
  decide +kernel

/-- Chapter 8, "One round of access". -/
theorem test_access_gaps :
    (accessGap 7 8 2, accessGap 9 8 2, accessGap 10 8 2, accessGap 13 8 1) = (200, 138, 139, 78) ∧
      (accessGap 7 13 2, accessGap 9 13 2, accessGap 10 13 2) = (195, 197, 198) := by
  decide

/-- Chapter 8, "Muting and rejoining": garble 11 at a bucket of 94. -/
def muting (bucket : Nat) : State :=
  climbing.setLif
    { climbing.lif with
      bucket := bucket
      transmitter :=
        some { body := .claim { need := 3200, number := 52 }, stamp := 0, tooLate := false, bytes := [] } }

theorem test_garble :
    (after .garble (muting 86)).lif.muted = false ∧ (after .garble (muting 86)).lif.claimSlot.isSome = true ∧
      (after .garble (muting 94)).lif.muted = true ∧ (after .garble (muting 94)).lif.bucket = 102 ∧
      (after .garble (muting 94)).lif.claimSlot = none ∧ (after .garble (muting 94)).mct.hold.mute = true := by
  decide +kernel

/-- Chapter 8: the return from MUTE after 27 clean posts. -/
def muted (count : Nat) : State :=
  (climbing.setLif { climbing.lif with muted := true, bucket := 102, rejoinMs := 4000, rejoinCount := count }).setMct
    { climbing.mct with hold := { noHold with mute := true } }

theorem test_mute_leave :
    (after .muteLeave (muted 27)).lif.muted = false ∧ (after .muteLeave (muted 27)).lif.bucket = 40 ∧
      modeOf (after .muteLeave (muted 27)).mct = .climb ∧ (after .muteLeave (muted 7)).lif.muted = true := by
  decide +kernel

/-- Station 9 free to send, last sender 8, with these slots filled. -/
def sending (halt claim gate level reply : Bool) : State :=
  climbing.setLif
    { climbing.lif with
      lastSender := 8
      haltSlot := if halt then some { post := { kind := .climb, reason := .spread }, stamp := 5 } else none
      claimSlot := if claim then some { post := { need := 3200, number := 52 }, stamp := 3 } else none
      gateSlot := if gate then some { post := { state := .opened, needAtOpen := 0, yielded := false }, stamp := 2 } else none
      levelSlot := if level then some { post := (), stamp := 1 } else none
      replySlot := if reply then some { post := [20, 2, 0], stamp := 4 } else none }

/-- The quiet time after a garble counts from the end of the byte that the own start bit opened, 10 bit times of the line rate (R155). -/
theorem test_garble_quiet :
    let s := after (.access 10) (sending true false false false false)
    s.lif.byteLeftUs = 10 * bitTimeUs s.srs.active ∧ (after .garble s).lif.byteLeftUs = s.lif.byteLeftUs ∧
      (quietPassed s.lif.byteLeftUs (after .garble s).lif).quietUs = 0 := by
  decide +kernel

/-- R156: the check of a post followed by its two check bytes is zero, and one changed bit is found. -/
theorem test_check :
    crcOf (checkedPart 9 (.halt { kind := .all, reason := .estop }) ++
        checkBytes (crcOf (checkedPart 9 (.halt { kind := .all, reason := .estop })))) = 0#16 ∧
      (frameOf 9 (.halt { kind := .all, reason := .estop })).length = 8 ∧
      judgePost (frameOf 9 (.halt { kind := .all, reason := .estop })) =
        .clean { sender := 9, body := .halt { kind := .all, reason := .estop } } ∧
      judgePost ((frameOf 9 (.halt { kind := .all, reason := .estop })).set 1 8) = .check := by
  decide +kernel

/-- A HALT post of another station goes to the FIFO, and one with the own number is an identity clash (R40, R163). -/
theorem test_post_received :
    (after (.postReceived (frameOf 10 (.halt { kind := .all, reason := .estop }))) climbing).lif.fifo =
        [{ sender := 10, body := .halt { kind := .all, reason := .estop } }] ∧
      (after (.postReceived (frameOf 9 (.halt { kind := .all, reason := .estop }))) climbing).lif.silent = true ∧
      (after (.postReceived (frameOf 9 (.halt { kind := .all, reason := .estop }))) climbing).mct.safe.identityClash = true := by
  decide +kernel

/-- After a framing error the receiver takes nothing, and counts no second one, until 4 bit times of quiet (R155, R161). -/
theorem test_framing_wait :
    let s := after .framingError climbing
    after .framingError s = s ∧ after (.postReceived (frameOf 10 (.halt { kind := .all, reason := .estop }))) s = s ∧
      (after (.access 3) s).lif.rx = .errored ∧ (after (.access 4) s).lif.rx = .ready := by
  decide +kernel

/-- A gap inside a post is a framing error whose quiet time already exceeds 3 bit times: the next post is taken (R155, R161). -/
theorem test_framing_gap :
    let s := after (.framingError 4) climbing
    (s.lif.rx, s.lif.framingErrors, s.lif.quietUs) = (.ready, 1, 4 * bitTimeUs s.srs.active) ∧
      (after (.postReceived (frameOf 10 (.halt { kind := .all, reason := .estop }))) s).lif.fifo.length = 1 ∧
      (after (.framingError 3) climbing).lif.rx = .errored := by
  decide +kernel

/-- Chapter 8: MUTE ends at the clean post that makes the count 8 once the timer stands at 4,000 ms, and not before (R172). -/
theorem test_mute_left_by_post :
    let hear (s : State) := after (.postReceived (frameOf 10 (.halt { kind := .all, reason := .estop }))) s
    let early := (muted 7).setLif { (muted 7).lif with rejoinMs := 3999 }
    (hear (muted 7)).lif.muted = false ∧ (hear (muted 7)).lif.bucket = 40 ∧ (hear (muted 7)).mct.hold = noHold ∧
      (hear (muted 6)).lif.muted = true ∧ (hear early).lif.rejoinCount = 8 ∧ (hear early).lif.muted = true ∧
      (after .muteLeave (hear early)).lif.muted = true := by
  decide +kernel

/-- A framing error on a line that was long quiet ends the quiet time: neither a start bit nor a post ends the wait, 4 bit times do
(R155, R161). -/
theorem test_framing_error :
    let s := after .framingError (climbing.setLif { climbing.lif with quietUs := 1000000 })
    (s.lif.framingErrors, s.lif.quietUs) = (1, 0) ∧ (after (.startBit 0) s).lif.rx = .errored ∧
      (after .framingError (after (.startBit 0) s)).lif.framingErrors = 1 ∧ (after (.access 4) s).lif.rx = .ready := by
  decide +kernel

/-- Chapter 7, "An E-stop on one yoke": a HALT ALL at a node in RELEASE lets the stroke finish. -/
theorem test_halt_in_release :
    let s :=
      after (.haltTaken 9 { kind := .all, reason := .estop })
        ((lifting.setSsq { lifting.ssq with phase := .release }).setSrs
          { lifting.srs with active := { ringSettings with station := 13 } })
    (modeOf s.mct, s.ssq.phase, s.mct.settling) = (.hold, .release, true) ∧
      s.mct.lastHalt = some { sender := 9, post := { kind := .all, reason := .estop }, minute := 0 } := by
  decide +kernel

/-- Station 10 of chapter 7, "An open valve coil, and clearing it". -/
def valveOpen (isOpen : Bool) : State :=
  after (.coilCheck .release isOpen) (after (.coilCheck .release true) climbing)

theorem test_clear_refused :
    replyIn (after (.clear 20 9) (valveOpen true)) = some [20, 4, 1, 7, 3, 0, 8, 0] := by
  decide +kernel

theorem test_clear_done :
    let s := after (.clear 20 9) (valveOpen false)
    replyIn s = some [20, 4, 0, 2, 1, 0, 0] ∧ modeOf s.mct = .hold ∧
      modeOf (after (.climb 20 9) s).mct = .climb := by
  decide +kernel

/-- Chapter 7, "Readiness at commissioning". -/
theorem test_climb_readiness :
    replyIn (after (.climb 20 9) (node.setSrs { node.srs with calibrationPending := true })) =
        some [20, 1, 1, 12, 0, 0, 0, 0] ∧
      replyIn (after (.climb 20 9) (node.setSsq { node.ssq with heightValid := false })) = some [20, 1, 1, 5, 0, 0, 0, 0] ∧
      replyIn (after (.climb 20 9) node) = some [20, 1, 0, 1, 0, 0, 0] := by
  decide +kernel

/-- A ring-wide CLIMB removes HALT_CLIMB, and gets no reply (R148, R153). -/
theorem test_climb_ring :
    let s := after (.climb 20 63) (climbing.setMct { climbing.mct with hold := { noHold with haltClimb := true } })
    modeOf s.mct = .climb ∧ replyIn s = none := by
  decide +kernel

/-- Chapter 9, "Reading the column across a release": the cursor beyond the size. -/
theorem test_read_window :
    let s :=
      (node.setLco { node.lco with column := pouringColumn.take 4 }).setOrs
        { node.ors with cursor := some { collection := .layers, first := 0, last := 4, position := 4 } }
    replyIn (after (.read 20 9 0) s) = some [20, 9, 1, 9] ∧
      ((after (.read 20 9 0) s).ors.cursor.map Cursor.position) = some 0 := by
  decide +kernel

/-- Chapter 9, "An amend session". -/
def amending : State :=
  (holding.setLco
    { holding.lco with
      column :=
        [layer 203 .placed 154600 156200 76540, layer 204 .placed 156200 158000 61020,
          layer 205 .placed 158000 159700 30400] }).setOrs
    { cursor := some { collection := .layers, first := 1, last := 2, position := 1 }, amend := true, storeWaiting := none,
      restartWaiting := false }

theorem test_amend :
    let s := after (.amend 20 9 95000) amending
    replyIn s = some [20, 11, 0, 0, 204, 1, 115, 24] ∧ s.ors.cursor.map Cursor.position = some 2 ∧
      s.lco.column[1]?.map (fun r => (r.maturity, r.flags.amended)) = some (95000, true) ∧
      replyIn (after (.amend 20 9 96000) (after (.status 20 9 3) amending)) = some [20, 11, 1, 10] := by
  decide +kernel

/-- Chapter 9, "Commissioning an unset node", with the key in SERVICE. -/
def unset : State := State.reset.setMct { State.reset.mct with key := .service, hold := { noHold with key := true } }

theorem test_store_no_base : replyIn (after (.store 20 0) unset) = some [20, 13, 1, 8] := by decide +kernel

theorem test_store_after_defaults :
    let s := after (.store 20 0) (after (.defaults 20 0) unset)
    s.ors.storeWaiting = some 20 ∧ s.srs.write.isSome = true ∧
      replyIn (after (.orderWhileStoring 20 0 17 [0]) (s.setLif { s.lif with replySlot := none })) = some [20, 17, 1, 4] := by
  decide +kernel

theorem test_setting :
    replyIn (after (.setting 20 0 1 14) unset) = some [20, 12, 0, 1, 0, 0, 0, 14] ∧
      (after (.setting 20 0 1 14) unset).srs.staged.station = 14 := by
  decide +kernel

theorem test_store_write_done :
    let s := after .storeWriteDone (service.setSrs
        { service.srs with write := some { block := ringSettings, forStore := true }, stored := none } |>.setOrs
      { service.ors with storeWaiting := some 20 })
    s.ors.storeWaiting = none ∧ s.srs.stored = some (writtenBlock ringSettings) ∧
      replyIn s = some [20, 13, 0] := by
  decide +kernel

/-- Chapter 10, "Calibration on a commissioned ring": floor(948/4) = 237, and Smax 227. -/
theorem test_calibration :
    let st :=
      { newStroke .calibration none with
        startSample := some (sampleAt 10 10 10 10), topSample := some (sampleAt 247 247 247 247), riseEnd := some .full }
    calibratedStroke st = some 237 ∧ (calibrationOutcome st node.srs).active.fullStroke = some 237 ∧
      (calibrationOutcome st node.srs).staged.smax = 227 ∧ (calibrationOutcome st node.srs).staged.calibrateNext = 0 ∧
      (calibrationOutcome st node.srs).write.map (fun w => w.block.smax) = some 227 := by
  decide +kernel

/-- Inputs at rest for a start. -/
def restInputs : StartInputs :=
  { estopActive := false, key := { run := true, hold := false, service := false }, gateOpenLimit := false,
    gateClosedLimit := true, beamPresent := false }

/-- Chapter 10, "A store spoiled by a power loss": 40 minutes stopped credit 4,800 mu. -/
def stoppedNode : State :=
  after (.powerFail true) (climbing.setLco { climbing.lco with column := levelColumn, nextId := 315 })

theorem test_warm_start :
    let s := after (.start restInputs []) (stoppedNode.setSrs { stoppedNode.srs with outage := 40 })
    s.lco.column.map Layer.maturity = [76000, 43200, 16850, 7010] ∧ s.ssq.height = 152340 ∧ modeOf s.mct = .hold ∧
      s.mct.hold.operator = true ∧ s.lco.nextId = 315 := by
  decide +kernel

/-- Chapter 7, "A warm start from SAFE". -/
theorem test_start_from_safe :
    let saved : SafeSet := { noSafe with overpressure := true, strokeRepeat := true }
    let s :=
      after (.start restInputs [])
        (after (.powerFail true) (climbing.setMct { climbing.mct with safe := saved, window := [1, 0, 1] }))
    s.mct.safe = { noSafe with restored := true } ∧ s.mct.restored = some saved ∧ s.mct.hold = noHold ∧
      s.mct.window = [1, 0, 1] ∧ s.lif.haltSlot = none ∧
      modeOf (after (.clear 20 9) s).mct = .hold := by
  decide +kernel

theorem test_outage : (after .outageMinute stoppedNode).srs.outage = 1 ∧ (after .retentionLost stoppedNode).srs.area = none := by
  decide +kernel

/-- The node in step 4 of its start, before or after MSQ's first full pass. -/
def deciding (passed : Bool) : State :=
  (node.setSrs { node.srs with step := .deciding }).setMsq { node.msq with passDone := passed }

theorem test_start_steps :
    let s := after .startCalibrationStep (deciding true)
    s.srs.step = .joinListen ∧ (after .joinListenEnd s).srs.step = .running ∧ (after .joinListenEnd s).cpl.cycleMs = some 0 ∧
      after .startCalibrationStep (deciding false) = deciding false := by
  decide +kernel

theorem test_trim :
    (after (.trimSet 20 9 200) node).cpl.trim = -32 ∧ (after (.trimSet 20 9 100) node).cpl.trim = 31 ∧
      replyIn (after (.trimDown 20 9) node) = some [20, 5, 0, 255] := by
  decide +kernel

theorem test_key : (after (.keyChange { run := true, hold := true, service := false }) node).mct.key = .hold := by decide +kernel

/-- A whole step takes the front of the queue; an empty queue lets a millisecond pass (log entry 1). -/
theorem test_step :
    (step { node with pending := [.trimUp 20 9, .tick] }) = .next ((after (.trimUp 20 9) node).setPending [.tick]) ∧
      step node = .next (idleTick node) ∧ (idleTick node).cpl.cycleMs = some 1 :=
  ⟨rfl, rfl, rfl⟩

/-! ### Witnesses: a state and operands that meet the hypotheses of each statement, clause by clause -/

/-- The conditions on a state in which station 9 takes an order of station 20. -/
def ready (s : State) : Bool :=
  blocksRun s && decide (ownStation s = 9) && decide (s.lif.fifo = []) && decide (s.ors.storeWaiting = none)

theorem ready_iff {s : State} (h : ready s = true) :
    blocksRun s = true ∧ ownStation s = 9 ∧ s.lif.fifo = [] ∧ s.ors.storeWaiting = none := by
  simpa [ready, and_assoc] using h

/-- What is said of a saved area holds where there is none. -/
theorem no_area {s : State} {P : Retained → Prop} (h : s.srs.area = none) : ∀ a, s.srs.area = some a → P a := by
  intro a e
  rw [h] at e
  cases e

/-- An addressed order is taken in such a state. -/
theorem order_meets (s : State) (h : ready s = true) (code : Byte) (args : List Byte) :
    AddressedOrder 20 9 code args [] s ∧ NotStoring s :=
  have r := ready_iff h
  ⟨⟨r.1, by decide, r.2.1 ▸ (by decide), r.2.1.symm, by decide, .inr ⟨r.2.2.1, rfl⟩⟩, r.2.2.2⟩

/-- A ring-wide order is taken in such a state. -/
theorem ring_meets (s : State) (h : ready s = true) (code : Byte) (args : List Byte) :
    RingOrder 20 code args [] s ∧ NotStoring s :=
  have r := ready_iff h
  ⟨⟨r.1, by decide, r.2.1 ▸ (by decide), .inr ⟨r.2.2.1, rfl⟩⟩, r.2.2.2⟩

/-- The post of a peer is taken in such a state. -/
theorem post_meets (s : State) (h : ready s = true) (sender : Nat) (hs : 1 ≤ sender ∧ sender ≤ 62 ∧ sender ≠ 9)
    (body : PostBody) : PostTaken sender body [] s :=
  have r := ready_iff h
  ⟨r.1, ⟨hs.1, hs.2.1⟩, fun e => hs.2.2 (e.trans r.2.1), .inr ⟨r.2.2.1, rfl⟩⟩

/-- The post of a sender that can be no peer reaches its owner in such a state. -/
theorem outside_meets (s : State) (h : ready s = true) (sender : Nat) (hs : sender = 0 ∨ 62 < sender) (body : PostBody) :
    PostOutside sender body [] s :=
  have r := ready_iff h
  ⟨r.1, hs, fun e => by have := e.trans r.2.1; omega, .inr ⟨r.2.2.1, rfl⟩⟩

theorem node_takes (code : Byte) (args : List Byte) : AddressedOrder 20 9 code args [] node :=
  (order_meets _ (by decide +kernel) _ _).1

theorem service_takes (code : Byte) (args : List Byte) : AddressedOrder 20 9 code args [] service :=
  (order_meets _ (by decide +kernel) _ _).1

theorem climbing_takes (code : Byte) (args : List Byte) : AddressedOrder 20 9 code args [] climbing :=
  (order_meets _ (by decide +kernel) _ _).1

theorem withPeers_takes (code : Byte) (args : List Byte) : AddressedOrder 20 9 code args [] (withPeers node) :=
  (order_meets _ (by decide +kernel) _ _).1

theorem amending_takes (code : Byte) (args : List Byte) : AddressedOrder 20 9 code args [] amending :=
  (order_meets _ (by decide +kernel) _ _).1

theorem climbing_hears (code : Byte) (args : List Byte) : RingOrder 20 code args [] climbing :=
  (ring_meets _ (by decide +kernel) _ _).1

theorem climbing_posts (sender : Nat) (hs : 1 ≤ sender ∧ sender ≤ 62 ∧ sender ≠ 9) (body : PostBody) :
    PostTaken sender body [] (withPeers climbing) :=
  post_meets _ (by decide +kernel) sender hs body

theorem climbing_ignores (sender : Nat) (hs : sender = 0 ∨ 62 < sender) (body : PostBody) :
    PostOutside sender body [] (withPeers climbing) :=
  outside_meets _ (by decide +kernel) sender hs body

/-- A post at the head of a FIFO of two is taken, and the other stays. -/
theorem witness_waits_in_fifo :
    AddressedOrder 20 9 2 [] [orderPost 21 9 2 []]
      (climbing.setLif { climbing.lif with fifo := [orderPost 20 9 2 [], orderPost 21 9 2 []] }) :=
  ⟨by decide +kernel, by decide, by decide +kernel, rfl, by decide, .inl rfl⟩

/-- A node while a RESTART waits. -/
def restartWaitsAt (s : State) : State := s.setOrs { s.ors with restartWaiting := true }

theorem witness_StepTakesFront :
    ({ node with pending := [.tick] } : State).pending = .tick :: [] ∧ node.pending = [] :=
  ⟨rfl, rfl⟩

/-- A millisecond without a command: while the node sends the quiet time stands still and the byte in progress runs round, after an
error the wait ends, in MUTE the rejoin timer counts, and while a RESTART waits LIF alone counts (R155, R161, R172, R201). -/
theorem witness_StepTakesFront_time :
    let sends := after (.access 10) (sending true false false false false)
    let errored := after .framingError climbing
    let waits := restartWaitsAt (muted 0)
    (sends.pending = [] ∧ sends.lif.transmitter.isSome = true ∧ sends.lif.byteLeftUs ≤ 10 * bitTimeUs sends.srs.active ∧
        (idleTick sends).lif.quietUs = sends.lif.quietUs) ∧
      (errored.lif.transmitter = none ∧ (idleTick errored).lif.rx = .ready ∧ (idleTick errored).lif.quietUs = 1000) ∧
      (waits.ors.restartWaiting = true ∧ waits.srs.life = .up ∧ (idleTick waits).nowMs = waits.nowMs) ∧
      ((idleTick (muted 0)).nowMs = (muted 0).nowMs + 1 ∧
        (idleTick { (muted 0) with lif := { (muted 0).lif with rejoinMs := 7 } }).lif.rejoinMs = 8) ∧
      (idleTick (withPeers node)).pvw.peers.map Peer.ageMs = [1, 1, 1, 1, 1] ∧
      ((deciding true).srs.life = .up ∧ stoppedNode.pending = [] ∧ idleTick stoppedNode = stoppedNode) := by
  decide +kernel

theorem witness_OrderRoundTrip :
    orderParts (.trimSet 20 9 200) = some (20, 9, 5, [3, 200]) ∧
      ∀ a b c d, Instr.trimSet 20 9 200 ≠ .orderInvalid a b c d ∧ Instr.trimSet 20 9 200 ≠ .orderWhileStoring a b c d :=
  ⟨rfl, fun _ _ _ _ => ⟨nofun, nofun⟩⟩

theorem witness_PostRoundTrip :
    63 ≤ 63 ∧ (PostBody.level (levelPost 47 1000000 .jammed .ending)).fits = true ∧
      (PostBody.order (List.replicate 12 0)).fits = true ∧ (PostBody.reply (List.replicate 14 0)).fits = true := by
  decide

/-- A post of station 9 of this kind and payload, its check agreeing. -/
def framed (kind : Byte) (payload : List Byte) : List Byte :=
  let part := [9, kind, byteOf payload.length] ++ payload
  0xC3#8 :: (part ++ checkBytes (crcOf part))

/-- A post with a field at the end of its range is clean (R157, R162). -/
theorem witness_PostRoundTrip_clean :
    (judgePost (framed 1 [47, 3, 63, 0x0F, 0x42, 0x40, 255, 0x45, 0x3A, 0x98]) =
        .clean
          { sender := 9
            body :=
              .level
                { levelPost 47 1000000 .jammed .ending with
                  mode := .safe
                  flags :=
                    { heightValid := true, bind := true, settling := true, channelFault := true, laserDisagree := true,
                      heightLimit := true }
                  strokeCount := 255, need := 15000 } }) ∧
      judgePost (framed 2 [0x3A, 0x98, 255]) = .clean { sender := 9, body := .claim { need := 15000, number := 255 } } ∧
      judgePost (framed 3 [4, 0x3A, 0x98, 1]) =
        .clean { sender := 9, body := .gate { state := .jammed, needAtOpen := 15000, yielded := true } } ∧
      judgePost (framed 4 [2, 6]) = .clean { sender := 9, body := .halt { kind := .all, reason := .estop } } ∧
      KindAllowed 1 10 ∧ ¬ FieldsOutside 4 [2, 6] := by
  refine ⟨by decide +kernel, by decide +kernel, by decide +kernel, by decide +kernel, .inl ⟨rfl, rfl⟩, ?_⟩
  simp [FieldsOutside]

/-- The same posts with one field a step outside its range, each with its check agreeing, are framing errors (R157, R162): the sector,
the mode, the flags, the height, the gate, the pour state and the need of LEVEL; the need of CLAIM; the gate, the need and the mark of
GATE; the kind and the reason of HALT. -/
theorem witness_PostRoundTrip_fields :
    ([framed 1 [48, 3, 63, 0x0F, 0x42, 0x40, 255, 0x45, 0x3A, 0x98], framed 1 [47, 4, 63, 0x0F, 0x42, 0x40, 255, 0x45, 0x3A, 0x98],
          framed 1 [47, 3, 64, 0x0F, 0x42, 0x40, 255, 0x45, 0x3A, 0x98], framed 1 [47, 3, 63, 0x0F, 0x42, 0x41, 255, 0x45, 0x3A, 0x98],
          framed 1 [47, 3, 63, 0x0F, 0x42, 0x40, 255, 0x55, 0x3A, 0x98], framed 1 [47, 3, 63, 0x0F, 0x42, 0x40, 255, 0x46, 0x3A, 0x98],
          framed 1 [47, 3, 63, 0x0F, 0x42, 0x40, 255, 0x45, 0x3A, 0x99], framed 2 [0x3A, 0x99, 255], framed 3 [5, 0x3A, 0x98, 1],
          framed 3 [4, 0x3A, 0x99, 1], framed 3 [4, 0x3A, 0x98, 2], framed 4 [0, 6], framed 4 [3, 6], framed 4 [2, 0],
          framed 4 [2, 7]].map judgePost) =
        List.replicate 15 .framing ∧
      FieldsOutside 4 [3, 6] := by
  exact ⟨by decide +kernel, .inr (.inl (by decide))⟩

/-- A kind or a length that is not allowed is a framing error, and so is a cut frame; the check is judged before the kind (R161,
R162). -/
theorem witness_PostRoundTrip_kinds :
    ([framed 0 [2, 6], framed 7 [2, 6], framed 4 [2], framed 5 [9], framed 6 [20, 2], (framed 4 [2, 6]).take 7,
          framed 5 (List.replicate 13 0)].map judgePost) = List.replicate 7 .framing ∧
      (framed 0 [2, 6]).length = 8 ∧ judgePost ((framed 0 [2, 6]).set 5 7) = .check ∧ ¬ KindAllowed 0 2 := by
  exact ⟨by decide +kernel, by decide +kernel, by decide +kernel, by simp [KindAllowed]⟩

/-- The node with a full column, two posts in the FIFO and a full window. -/
def crowded : State :=
  ((node.setLco { node.lco with column := fullColumn, nextId := 231 }).setLif
    { node.lif with fifo := [orderPost 20 9 2 [], orderPost 21 9 2 []] }).setMct
    { node.mct with window := List.replicate 10 0 }

theorem witness_CapacitiesKept : Capacities crowded ∧ step crowded = .next (idleTick crowded) :=
  ⟨⟨by decide +kernel, by decide +kernel, by decide +kernel, by decide +kernel, by decide +kernel, no_area rfl⟩, rfl⟩

theorem witness_GarbleBoundsKept : GarbleBounds (muting 95).lif ∧ step (muting 95) = .next (idleTick (muting 95)) :=
  ⟨⟨by decide +kernel, by decide +kernel, by decide +kernel⟩, rfl⟩

/-- A post queued into an empty slot is the youngest; one queued into a filled slot keeps its place and its age (R166). -/
theorem witness_GarbleBoundsKept_ages :
    let l := queueGatePost { state := .opened, needAtOpen := 0, yielded := false }
      (queueClaimPost { need := 2500, number := 1 } (lifAtStart 9))
    let again := queueClaimPost { need := 2600, number := 2 } l
    AgesOrdered again ∧ (again.claimSlot, again.gateSlot.map Slot.stamp) =
        (some { post := { need := 2600, number := 2 }, stamp := 0 }, some 1) ∧
      step (node.setLif again) = .next (idleTick (node.setLif again)) :=
  ⟨⟨by decide, by decide, by decide, by decide, by decide, by decide⟩, by decide, rfl⟩

theorem witness_ValvesInPhaseKept : ValvesInPhase lifting.ssq ∧ step lifting = .next (idleTick lifting) :=
  ⟨⟨by decide +kernel, by decide +kernel⟩, rfl⟩

/-- The lift coil driven in LIFT, the release output held off by the enable, and the open drive held off in SAFE (R66, R67, R93). -/
theorem witness_ValvesInPhaseKept_outputs :
    let both := { lifting.ssq with releaseOn := true }
    let opening (s : State) : State := s.setFct { s.fct with gate := .opening, motor := .openDrive }
    liftCoilDuty lifting.ssq = 100 ∧ (both.liftEnable, releaseCoilOn both) = (true, false) ∧
      releaseCoilOn { both with liftEnable := false } = true ∧
      (openDriveOn (opening climbing), openDriveOn (opening (valveOpen true))) = (true, false) ∧
      closeDriveOn (opening climbing) = false := by
  decide +kernel

theorem witness_HeightAndTrimKept : HeightAndTrimRanges node ∧ step node = .next (idleTick node) :=
  ⟨⟨by decide +kernel, by decide +kernel, no_area rfl⟩, rfl⟩

theorem witness_IdentityClashLasts :
    exec .tick (climbing.setLif { climbing.lif with silent := true }) =
        .next (after .tick (climbing.setLif { climbing.lif with silent := true })) ∧
      (∀ x h, Instr.tick ≠ .start x h) ∧ (climbing.setLif { climbing.lif with silent := true }).lif.transmitter = none ∧
      (after (.postReceived (frameOf 9 (.halt { kind := .all, reason := .estop }))) climbing).mct.safe.identityClash = true :=
  ⟨rfl, nofun, rfl, by decide +kernel⟩

/-- A calibration stroke of 948 tenths over four jacks completes at its END sample's last conversion: floor(948/4) = 237. -/
def calibrating : State :=
  { (node.setSsq
      { node.ssq with
        phase := .settle
        stroke :=
          some
            { newStroke .calibration none with
              startSample := some (sampleAt 10 10 10 10), topSample := some (sampleAt 247 247 247 247)
              riseEnd := some .full } }).setMsq
      { node.msq with
        chain := some { tag := .finish, done := [⟨some 10, true⟩, ⟨some 10, true⟩, ⟨some 10, true⟩, ⟨some 10, true⟩] } } with
    pending := [.conversionComplete 41] }

theorem witness_ActiveSettingsFixed :
    step calibrating = .next (after (.conversionComplete 41) (calibrating.setPending [])) ∧
      (∀ x h rest, calibrating.pending = .start x h :: rest → calibrating.srs.life = .up) ∧
      (after (.conversionComplete 41) calibrating).srs.active.fullStroke = some 237 ∧
      calibrating.srs.active.fullStroke = none :=
  ⟨rfl, fun _ _ _ _ => rfl, by decide +kernel⟩

/-- The writes in order before and after a STORE whose write begins. -/
theorem witness_ActiveSettingsFixed_writes :
    WritesInOrder service.srs ∧ WritesInOrder (after (.store 20 9) service).srs ∧
      (after (.store 20 9) service).srs.write.isSome = true :=
  ⟨⟨by decide +kernel, by decide +kernel, by decide +kernel⟩, ⟨by decide +kernel, by decide +kernel, by decide +kernel⟩,
    by decide +kernel⟩

/-- The states in which CLIMB is refused in SETUP, in the order of its checks, and the one in which it is done. -/
def setupStates : List State :=
  [node.setSsq { node.ssq with phase := .settle }, node.setSrs { node.srs with loadResult := .default },
    node.setSrs { node.srs with calibrationPending := true }, node.setSsq { node.ssq with heightValid := false },
    node.setLco { node.lco with known := false },
    node.setPvw { node.pvw with peers := [peer 14 8 152340 true .climb .closed .dry 0, peer 15 8 152340 true .climb .closed .dry 0] },
    node]

theorem witness_ClimbFromSetup :
    (∀ s ∈ setupStates, ready s = true ∧ modeOf s.mct = .setup) ∧
      setupStates.map (fun s => (replyIn (after (.climb 20 9) s)).map fun r => r.take 4) =
        [some [20, 1, 1, 4], some [20, 1, 1, 11], some [20, 1, 1, 12], some [20, 1, 1, 5], some [20, 1, 1, 13],
          some [20, 1, 1, 14], some [20, 1, 0, 1]] := by
  decide +kernel

theorem witness_ClimbWhileRunning :
    (AddressedOrder 20 9 1 [] [] climbing ∧ NotStoring climbing) ∧ modeOf climbing.mct ≠ .setup ∧
      ready (valveOpen true) = true ∧ modeOf (valveOpen true).mct = .safe :=
  ⟨order_meets _ (by decide +kernel) _ _, by decide +kernel⟩

theorem witness_HoldAddsOperator :
    (AddressedOrder 20 9 2 [] [] lifting ∧ NotStoring lifting) ∧ modeOf lifting.mct = .climb ∧ lifting.ssq.phase ≠ .idle ∧
      ready node = true ∧ modeOf node.mct ≠ .climb :=
  ⟨order_meets _ (by decide +kernel) _ _, by decide +kernel⟩

theorem witness_SetupOrder :
    (AddressedOrder 20 9 3 [] [] holding ∧ NotStoring holding) ∧ modeOf holding.mct = .hold ∧ holding.ssq.phase = .idle ∧
      holding.fct.gate = .closed ∧ ready (holding.setFct { holding.fct with gate := .closing }) = true ∧
      ready climbing = true :=
  ⟨order_meets _ (by decide +kernel) _ _, by decide +kernel⟩

/-- The node with a jammed gate whose closed limit is on. -/
def jammed : State := climbing.setFct { climbing.fct with gate := .jammed, blocked := true }

theorem witness_ClearOrder :
    (AddressedOrder 20 9 4 [] [] (valveOpen false) ∧ NotStoring (valveOpen false)) ∧ modeOf (valveOpen false).mct = .safe ∧
      clearLeaves (valveOpen false) = noSafe ∧ (valveOpen false).mct.base = .running ∧ ready jammed = true ∧
      jammed.fct.gate = .jammed ∧ modeOf jammed.mct ≠ .safe ∧ (after (.clear 20 9) jammed).fct.gate = .closed :=
  ⟨order_meets _ (by decide +kernel) _ _, by decide +kernel⟩

/-- CLEAR frees the gate with its posts and ends the pour block, so that the node claims (R96, R97, R100, R152); where the closed limit
is off the gate stays JAMMED, and a gate that is not JAMMED stays as it is. -/
theorem witness_ClearOrder_gate :
    let s := jammed.setMsq { jammed.msq with table := { jammed.msq.table with fill := good 2900 } }
    let t := after (.clear 20 9) s
    let off := after (.clear 20 9) (s.setPins { s.pins with gateClosedLimit := false })
    blockedNow s ∧ (t.fct.gate, t.fct.blocked, t.fct.pour) = (.closed, false, .claiming) ∧
      t.lif.gateSlot.map Slot.post = some { state := .closed, needAtOpen := 0, yielded := false } ∧
      t.lif.levelSlot.isSome = true ∧ (off.fct.gate, off.fct.blocked, (replyIn off).map fun r => r.take 4) =
        (.jammed, true, some [20, 4, 1, 7]) ∧ (after (.clear 20 9) climbing).fct = climbing.fct :=
  ⟨.inr (.inr (.inr (.inr (.inr (.inl rfl))))), by decide +kernel⟩

/-- CLEAR in SAFE with a restored list: the list goes with its cause, and OPERATOR joins the hold set only where the set empties (R142,
R151). -/
theorem witness_ClearOrder_restored :
    let s (clash : Bool) : State :=
      climbing.setMct
        { climbing.mct with
          safe := { noSafe with restored := true, sectorClash := clash }, restored := some { noSafe with valve := true }
          hold := { noHold with haltAll := true } }
    let t (clash : Bool) := (after (.clear 20 9) (s clash)).mct
    ready (s true) = true ∧ modeOf (s true).mct = .safe ∧ ((t true).restored, (t false).restored) = (none, none) ∧
      (t true).hold = { noHold with haltAll := true } ∧ (t false).hold = { noHold with haltAll := true, operator := true } := by
  decide +kernel

theorem witness_TrimOrders :
    NotStoring node ∧ AddressedOrder 20 9 5 [1] [] node ∧ AddressedOrder 20 9 5 [2] [] node ∧
      AddressedOrder 20 9 5 [3, 224] [] node :=
  ⟨rfl, node_takes _ _, node_takes _ _,
    node_takes _ _⟩

theorem witness_PlaneOrders :
    NotStoring node ∧ AddressedOrder 20 9 7 (1 :: bytes3 1000000) [] node ∧
      AddressedOrder 20 9 7 (1 :: bytes3 1000001) [] node ∧ AddressedOrder 20 9 7 [2] [] node :=
  ⟨rfl, node_takes _ _, node_takes _ _,
    node_takes _ _⟩

theorem witness_HeightSet :
    (AddressedOrder 20 9 6 (1 :: bytes3 1000000) [] node ∧ NotStoring node) ∧
      AddressedOrder 20 9 6 (1 :: bytes3 1000001) [] node ∧ AddressedOrder 20 9 6 (1 :: bytes3 0) [] lifting ∧
      lifting.ssq.phase ≠ .idle ∧ (after (.heightSet 20 9 1000000) node).ssq.height = 1000000 ∧
      replyIn (after (.heightSet 20 9 1000001) node) = some [20, 6, 1, 3] :=
  ⟨order_meets _ (by decide +kernel) _ _, (order_meets _ (by decide +kernel) _ _).1,
    (order_meets _ (by decide +kernel) _ _).1, by decide +kernel⟩

theorem peers_in_order : PeersInOrder (withPeers node) :=
  ⟨by decide +kernel, by decide +kernel, by decide +kernel, by decide +kernel, by decide +kernel, by decide +kernel⟩

theorem witness_HeightAdopt :
    (AddressedOrder 20 9 6 [2] [] (withPeers node) ∧ NotStoring (withPeers node)) ∧ HeightAndTrimRanges (withPeers node) ∧
      PeersInOrder (withPeers node) ∧ (after (.heightAdopt 20 9) (withPeers node)).ssq.height = 152378 ∧
      ready node = true ∧ (currentReference node).basis = .self :=
  ⟨order_meets _ (by decide +kernel) _ _, ⟨by decide +kernel, by decide +kernel, no_area rfl⟩, peers_in_order,
    by decide +kernel⟩

theorem witness_WindowOrder :
    (AddressedOrder 20 9 8 [2, 0, 4] [] (withPeers node) ∧ NotStoring (withPeers node)) ∧
      collectionOfCode 2 = some .peers ∧ collectionSize .peers (withPeers node) = 5 ∧
      AddressedOrder 20 9 8 [2, 0, 5] [] (withPeers node) ∧ AddressedOrder 20 9 8 [2, 1, 0] [] (withPeers node) ∧
      AddressedOrder 20 9 8 [0, 0, 0] [] (withPeers node) ∧ AddressedOrder 20 9 8 [4, 0, 0] [] (withPeers node) ∧
      replyIn (after (.window 20 9 2 0 4) (withPeers node)) = some [20, 8, 0, 2, 0, 4, 5] ∧
      replyIn (after (.window 20 9 2 0 5) (withPeers node)) = some [20, 8, 1, 3] :=
  ⟨order_meets _ (by decide +kernel) _ _, rfl, by decide +kernel, withPeers_takes _ _,
    withPeers_takes _ _, withPeers_takes _ _,
    withPeers_takes _ _, by decide +kernel⟩

/-- The restart-waiting mark stands while the restart waits and ends when it begins: at once in MUTE, at the reply's report, or at the
end of a write (R176, R188, R201). -/
theorem test_restart_mark :
    let marked (s : State) := (s.ors.restartWaiting, decide (s.srs.life = .restarting))
    let taken (s : State) := after (.restart 20 9) s
    let muted (s : State) := s.setLif { s.lif with muted := true }
    let writing := node.setSrs { node.srs with write := some { block := ringSettings, forStore := false } }
    marked (taken node) = (true, false) ∧ marked (taken (muted node)) = (false, true) ∧
      marked (taken (muted writing)) = (true, false) ∧
      marked (after .storeWriteDone (taken (muted writing))) = (false, true) ∧
      marked (after .postSent (after (.access 201) ((taken node).setLif { (taken node).lif with quietUs := 99999 }))) =
        (false, true) := by
  decide +kernel

/-- The amend session's node outside amend mode, with its cursor at a position. -/
def reading (position : Nat) : State :=
  amending.setOrs
    { amending.ors with
      amend := false, cursor := some { collection := .layers, first := 1, last := 2, position := position } }

theorem witness_ReadOrder :
    (AddressedOrder 20 9 9 [1] [] (reading 2) ∧ NotStoring (reading 2)) ∧
      ((reading 2).ors.cursor.map Cursor.position) = some 2 ∧ collectionSize .layers (reading 2) = 3 ∧
      ((after (.read 20 9 1) (reading 2)).ors.cursor.map Cursor.position) = some 1 ∧
      ready (reading 3) = true ∧ ready node = true ∧ node.ors.cursor = none ∧
      AddressedOrder 20 9 9 [2] [] node ∧ AddressedOrder 20 9 9 [0] [] (reading 3) :=
  ⟨order_meets _ (by decide +kernel) _ _, by decide +kernel, by decide +kernel, by decide +kernel, by decide +kernel,
    by decide +kernel, by decide +kernel, (order_meets _ (by decide +kernel) _ _).1,
    (order_meets _ (by decide +kernel) _ _).1⟩

/-- The two parts of each collection's record, byte by byte from R160: layer 205, the peer 10 of the ring and a stroke of 100 tenths. -/
theorem test_read_fields :
    let at_ (c : Collection) (position : Nat) (s : State) : State :=
      s.setOrs { s.ors with cursor := some { collection := c, first := 0, last := position, position := position } }
    let layers := at_ .layers 4 pouringNode
    let peers := at_ .peers 2 (withPeers node)
    let strokes :=
      at_ .strokes 0
        (node.setSsq
          { node.ssq with
            history :=
              [{ number := 58, allowance := some 110, climbed := 100, liftMs := 2845, releaseMs := 2460, cause := .target,
                 creep := false, substituted := true, laser := some (-2) }] })
    let shown (part : Byte) (s : State) := replyIn (after (.read 20 9 part) s)
    shown 0 layers = some [20, 9, 0, 16, 0, 205, 1, 0, 2, 105, 48, 2, 111, 212] ∧
      shown 1 layers = some [20, 9, 0, 17, 0, 205, 0, 48, 162, 0, 0, 0, 0, 200] ∧
      shown 0 peers = some [20, 9, 0, 32, 10, 6, 2, 83, 60, 11, 2, 1, 11, 84] ∧
      shown 1 peers = some [20, 9, 0, 33, 10, 0, 0, 0, 11, 84, 41, 0, 0, 0] ∧
      shown 0 strokes = some [20, 9, 0, 48, 58, 0, 110, 0, 100, 11, 29, 9, 156, 1] ∧
      shown 1 strokes = some [20, 9, 0, 49, 58, 6, 255, 254] := by
  decide +kernel

theorem witness_AmendOrders :
    NotStoring amending ∧ AddressedOrder 20 9 10 [] [] amending ∧ AddressedOrder 20 9 11 (bytes3 9999999) [] amending ∧
      AddressedOrder 20 9 11 (bytes3 10000000) [] amending ∧ amending.ors.amend = true ∧
      (∃ k r, amending.ors.cursor = some k ∧ amending.lco.column[k.position]? = some r ∧ r.state ≠ .pouring) ∧
      AddressedOrder 20 9 11 (bytes3 0) [] (reading 1) ∧ (reading 1).ors.amend = false ∧
      AddressedOrder 20 9 10 [] [] node ∧ node.ors.cursor = none ∧ AddressedOrder 20 9 10 [] [] climbing ∧
      modeOf climbing.mct = .climb :=
  ⟨rfl, amending_takes _ _, amending_takes _ _,
    amending_takes _ _, rfl, ⟨_, _, rfl, rfl, by decide +kernel⟩,
    (order_meets _ (by decide +kernel) _ _).1, rfl, node_takes _ _, rfl,
    climbing_takes _ _, by decide +kernel⟩

/-- AMEND at the POURING record, and at a position that the column no longer has. -/
theorem witness_AmendOrders_refused :
    (∃ s k r, AddressedOrder 20 9 11 (bytes3 1) [] s ∧ s.ors.amend = true ∧ s.ors.cursor = some k ∧
      s.lco.column[k.position]? = some r ∧ r.state = .pouring) ∧
    ∃ s k, AddressedOrder 20 9 11 (bytes3 1) [] s ∧ s.ors.amend = true ∧ s.ors.cursor = some k ∧
      s.lco.column[k.position]? = none :=
  ⟨⟨amending.setLco { amending.lco with column := [layer 1 .placed 152000 153000 0, layer 2 .pouring 153000 153000 0] }, _, _,
      (order_meets _ (by decide +kernel) _ _).1, rfl, rfl, rfl, rfl⟩,
    ⟨amending.setLco { amending.lco with column := [] }, _, (order_meets _ (by decide +kernel) _ _).1, rfl, rfl, rfl⟩⟩

theorem witness_SettingAndDefaults :
    NotStoring service ∧ AddressedOrder 20 9 12 (1 :: bytes4 62) [] service ∧
      AddressedOrder 20 9 12 (1 :: bytes4 63) [] service ∧ AddressedOrder 20 9 12 (42 :: bytes4 0) [] service ∧
      AddressedOrder 20 9 14 [] [] service ∧ modeOf service.mct = .setup ∧ service.mct.key = .service ∧
      fieldRange 1 = some (1, 62) ∧ fieldRange 42 = none ∧ AddressedOrder 20 9 12 (1 :: bytes4 62) [] node ∧
      node.mct.key ≠ .service ∧ AddressedOrder 20 9 14 [] [] climbing :=
  ⟨rfl, service_takes _ _, service_takes _ _,
    service_takes _ _, service_takes _ _, by decide +kernel,
    by decide +kernel, rfl, rfl, node_takes _ _, by decide +kernel,
    climbing_takes _ _⟩

theorem witness_StoreOrder :
    (AddressedOrder 20 9 13 [] [] service ∧ NotStoring service) ∧ service.srs.loadResult = .good ∧
      AddressedOrder 20 0 13 [] [] unset ∧ NotStoring unset ∧ modeOf unset.mct = .setup ∧ unset.mct.key = .service ∧
      unset.srs.loadResult ≠ .good ∧ unset.srs.checkAgreed = false ∧ unset.srs.defaultsTaken = false :=
  ⟨order_meets _ (by decide +kernel) _ _, rfl,
    ⟨by decide +kernel, by decide, by decide +kernel, rfl, by decide, .inr ⟨rfl, rfl⟩⟩, rfl, by decide +kernel⟩

/-- A write in progress while a RESTART waits whose reply has gone. -/
def restartWaits : State :=
  (node.setSrs
    { node.srs with write := some { block := ringSettings, forStore := false }, stored := none, restartReady := true }).setOrs
    { node.ors with restartWaiting := true }

theorem witness_StoreWriteDone :
    restartWaits.srs.write = some { block := ringSettings, forStore := false } ∧ restartWaits.srs.life = .up ∧
      (after .storeWriteDone restartWaits).srs.life = .restarting ∧
      (after .storeWriteDone restartWaits).srs.stored = some (writtenBlock ringSettings) ∧
      (after (.store 20 9) service).srs.write = some { block := ringSettings, forStore := true } ∧
      (after (.store 20 9) service).ors.storeWaiting = some 20 := by
  decide +kernel

/-- From the beginning of a write to its end the stored block is neither the old one nor the new one (R195), and a write that waits
begins as the one before it ends. -/
theorem witness_StoreWriteDone_waiting :
    let first : BlockWrite := { block := ringSettings, forStore := false }
    let second : BlockWrite := { block := { ringSettings with smax := 190 }, forStore := false }
    let asked := askWrite second (askWrite first node.srs)
    (asked.stored, asked.write, asked.writesWaiting) = (none, some first, [second]) ∧
      (let t := (after .storeWriteDone (node.setSrs asked)).srs; (t.stored, t.write, t.writesWaiting) = (none, some second, [])) ∧
      (after .storeWriteDone (after .storeWriteDone (node.setSrs asked))).srs.stored = some (writtenBlock second.block) := by
  decide +kernel

theorem witness_CalibrateOrder :
    (AddressedOrder 20 9 15 [] [] service ∧ NotStoring service) ∧ modeOf service.mct = .setup ∧
      service.mct.key = .service ∧ service.lco.known = true ∧ service.ssq.phase = .idle ∧ service.msq.chain = none ∧
      (after (.calibrate 20 9) service).ssq.phase = .pressurize ∧
      replyIn (after (.calibrate 20 9) (service.setLco { service.lco with column := levelColumn })) = some [20, 15, 1, 10] :=
  ⟨order_meets _ (by decide +kernel) _ _, by decide +kernel⟩

/-- A stroke that starts while a chain is in flight has its START trigger pending, and its chain starts at that chain's end; where one
is pending already the trigger is lost, and the START sample is the substituted copy (R122, R125, R126). -/
theorem witness_CalibrateOrder_pending :
    let busy (p : Option Tag) := service.setMsq
      { service.msq with
        pendingTrigger := p
        chain := some { tag := .top, done := [⟨some 12, true⟩, ⟨some 15, true⟩, ⟨some 10, true⟩, ⟨some 14, true⟩] } }
    let t (p : Option Tag) := after (.calibrate 20 9) (busy p)
    ((t none).msq.pendingTrigger, (t none).msq.overrun) = (some .start, false) ∧
      (after (.conversionComplete 41) (t none)).msq.chain = some { tag := .start, done := [] } ∧
      (after (.conversionComplete 41) (t none)).msq.pendingTrigger = none ∧
      ((t (some .finish)).msq.pendingTrigger, (t (some .finish)).msq.overrun) = (some .finish, true) ∧
      ((t (some .finish)).ssq.stroke.bind Stroke.startSample).map Sample.substituted = some true ∧
      blocksRun (t none) = true ∧ announcesGood .pres 41 (t none).msq.table.pres = true := by
  decide +kernel

theorem witness_RestartOrder :
    (AddressedOrder 20 9 16 [] [] node ∧ NotStoring node) ∧ modeOf node.mct ≠ .climb ∧ node.ssq.phase = .idle ∧
      node.fct.gate = .closed ∧ (after (.restart 20 9) node).srs.life = .up ∧
      (after (.restart 20 9) (node.setLif { node.lif with muted := true })).srs.life = .restarting ∧
      AddressedOrder 20 9 16 [] [] climbing :=
  ⟨order_meets _ (by decide +kernel) _ _, by decide +kernel, by decide +kernel, by decide +kernel, by decide +kernel,
    by decide +kernel, (order_meets _ (by decide +kernel) _ _).1⟩

theorem witness_StatusOrder :
    (AddressedOrder 20 9 17 [8] [] node ∧ NotStoring node) ∧ AddressedOrder 20 9 17 [9] [] node ∧
      AddressedOrder 20 9 17 [1] [] node ∧ replyIn (after (.status 20 9 9) node) = some [20, 17, 1, 3] ∧
      replyIn (after (.status 20 9 1) node) = some [20, 17, 0, 1, 0, 0, 0, 0, 0, 0, 0, 0, 0, 0] :=
  ⟨order_meets _ (by decide +kernel) _ _, node_takes _ _,
    node_takes _ _, by decide +kernel⟩

/-- Pages 0, 2, 3 and 8, byte by byte from R160, at the node of chapter 3, "An ordinary LEVEL expiry", after its expiry. -/
theorem test_status_pages :
    let s := after .cycleExpiry levelNode
    let page (n : Byte) := replyIn (after (.status 20 9 n) s)
    page 0 = some [20, 17, 0, 0, 1, 0, 0, 0, 64, 0, 0, 0, 0, 0] ∧
      page 2 = some [20, 17, 0, 2, 48, 4, 0, 0, 32, 0, 0, 2, 83, 20] ∧
      page 3 = some [20, 17, 0, 3, 16, 0, 38, 0, 110, 0, 110, 4, 0, 48] ∧
      page 8 = some [20, 17, 0, 8, 0, 250, 14, 176, 0, 180, 0, 110, 0, 0] := by
  decide +kernel

theorem witness_InvalidOrders :
    orderOf 20 9 18 [] = none ∧ (AddressedOrder 20 9 18 [] [] node ∧ NotStoring node) ∧ orderOf 20 63 5 [4] = none ∧
      RingOrder 20 5 [4] [] node ∧ orderOf 20 9 9 [] = none ∧ AddressedOrder 20 9 9 [] [] node ∧
      orderParts (.hold 9 9) = some (9, 9, 2, []) ∧ 9 = ownStation node ∧
      replyIn (after (.orderInvalid 20 9 18 []) node) = some [20, 18, 1, 3] :=
  ⟨rfl, order_meets _ (by decide +kernel) _ _, rfl, (ring_meets _ (by decide +kernel) _ _).1, rfl,
    (order_meets _ (by decide +kernel) _ _).1, by decide +kernel⟩

/-- The node while a STORE waits. -/
def storing : State := node.setOrs { node.ors with storeWaiting := some 20 }

theorem witness_BusyWhileStoring :
    orderParts (.hold 20 9) = some (20, 9, 2, []) ∧ (∀ a b c d, Instr.hold 20 9 ≠ .orderInvalid a b c d) ∧
      ¬ NotStoring storing ∧ AddressedOrder 20 9 2 [] [] storing ∧ RingOrder 20 2 [] [] storing ∧
      orderParts (.orderWhileStoring 20 9 99 [1]) = some (20, 9, 99, [1]) :=
  ⟨rfl, nofun, nofun, ⟨by decide +kernel, by decide, by decide +kernel, rfl, by decide, .inr ⟨rfl, rfl⟩⟩,
    ⟨by decide +kernel, by decide, by decide +kernel, .inr ⟨rfl, rfl⟩⟩, rfl⟩

theorem witness_RingWideOrders :
    (RingOrder 20 1 [] [] climbing ∧ NotStoring climbing) ∧ RingOrder 20 2 [] [] climbing ∧
      RingOrder 20 7 (1 :: bytes3 1000001) [] climbing ∧ RingOrder 20 7 (1 :: bytes3 1000000) [] climbing ∧
      RingOrder 20 7 [2] [] climbing ∧ RingOrder 20 16 [] [] climbing ∧
      orderParts (.restart 20 63) = some (20, 63, 16, []) :=
  ⟨ring_meets _ (by decide +kernel) _ _, climbing_hears _ _,
    climbing_hears _ _, climbing_hears _ _,
    climbing_hears _ _, climbing_hears _ _, rfl⟩

/-! ### Witnesses: the column, the peers and the feed -/

/-- Each record's bottom is the top of the one before it. -/
def contiguousB (col : List Layer) : Bool :=
  (List.range col.length).all fun i =>
    match col[i]?, col[i + 1]? with
    | some a, some b => decide (b.bottom = a.top)
    | _, _ => true

/-- Only the youngest record is POURING. -/
def pouringB (col : List Layer) : Bool :=
  (List.range col.length).all fun i =>
    match col[i]? with
    | some r => decide (r.state = .pouring → i + 1 = col.length)
    | none => true

theorem contiguous_of {col : List Layer} (h : contiguousB col = true) :
    ∀ i a b, col[i]? = some a → col[i + 1]? = some b → b.bottom = a.top := by
  intro i a b ha hb
  have hi : i < col.length := (List.getElem?_eq_some_iff.mp ha).1
  have hx := List.all_eq_true.mp h i (List.mem_range.mpr hi)
  simpa [ha, hb] using hx

theorem pouring_of {col : List Layer} (h : pouringB col = true) :
    ∀ i r, col[i]? = some r → r.state = .pouring → i + 1 = col.length := by
  intro i r hr hp
  have hi : i < col.length := (List.getElem?_eq_some_iff.mp hr).1
  have hx := List.all_eq_true.mp h i (List.mem_range.mpr hi)
  simp only [hr, decide_eq_true_eq] at hx
  exact hx hp

/-- A column in order, by its checks. -/
theorem in_order {col : List Layer}
    (h :
      contiguousB col = true ∧ pouringB col = true ∧ col.length ≤ 12 ∧
        (∀ r ∈ col, 0 ≤ r.bottom ∧ r.bottom ≤ r.top ∧ r.top ≤ 1000000) ∧ (∀ r ∈ col, r.maturity ≤ 9999999) ∧
        (col.map Layer.id).Nodup ∧ ∀ r ∈ col, r.id < 65536) : ColumnInOrder col :=
  ⟨h.2.2.1, contiguous_of h.1, h.2.2.2.1, h.2.2.2.2.1, pouring_of h.2.1, h.2.2.2.2.2.1, h.2.2.2.2.2.2⟩

theorem witness_ColumnStaysInOrder : ColumnKept pouringNode ∧ step pouringNode = .next (idleTick pouringNode) :=
  ⟨⟨in_order (by decide +kernel), by decide +kernel, by decide +kernel, no_area rfl⟩, rfl⟩

theorem witness_PeersStayInOrder : PeersInOrder (withPeers node) ∧ step (withPeers node) = .next (idleTick (withPeers node)) :=
  ⟨peers_in_order, rfl⟩

theorem witness_ColumnTimes :
    blocksRun node = true ∧ probesOf node.srs.active node.msq.table = [] ∧ blocksRun pouringNode = true ∧
      probesOf pouringNode.srs.active pouringNode.msq.table ≠ [] ∧ pouringNode.lco.column[5]?.isSome = true := by
  decide +kernel

theorem witness_ReleaseCap :
    (∀ r ∈ levelColumn, 2210 ≤ (r.maturity : Int)) ∧
      levelColumn = levelColumn.take 1 ++ layer 312 .placed 152520 155900 38400 :: levelColumn.drop 2 ∧
      (∀ x ∈ levelColumn.take 1, 60000 ≤ (x.maturity : Int)) ∧
      crel 60000 152340 { lcoCold with column := levelColumn } = some 180 := by
  decide +kernel

/-- A column of two records, the younger POURING with this top. -/
def twoLayers (top : Int) : List Layer := [layer 1 .placed 152000 153000 0, layer 2 .pouring 153000 top 5]

theorem witness_PourLayers_open :
    ColumnInOrder levelColumn ∧ (∀ r ∈ levelColumn, r.state ≠ .pouring) ∧ levelColumn.length < 12 ∧
      ColumnInOrder fullColumn ∧ fullColumn = fullColumn.take 11 ++ [layer 230 .placed 181500 183000 14400] ∧
      (∀ r ∈ fullColumn, r.state ≠ .pouring) ∧ fullColumn.length = 12 ∧ (65535 : Nat) < 65536 :=
  ⟨in_order (by decide +kernel), by decide +kernel, by decide +kernel, in_order (by decide +kernel), by decide +kernel,
    by decide +kernel, by decide +kernel, by decide⟩

/-- The end request: a pour 299 tenths deep is thin, one of 300 is not, and neither is one with no record below it. -/
theorem witness_PourLayers_end :
    ColumnInOrder (twoLayers 153299) ∧ ColumnInOrder (twoLayers 153300) ∧
      ColumnInOrder [layer 2 .pouring 153000 153299 5] ∧ (∃ r ∈ twoLayers 153299, r.state = .pouring) ∧
      (endLayer 152340 300 .yielded { lcoCold with column := twoLayers 153299, depthRef := some 153000 }).column.length = 1 ∧
      (endLayer 152340 300 .yielded { lcoCold with column := twoLayers 153300, depthRef := some 153000 }).column.length = 2 :=
  ⟨in_order (by decide +kernel), in_order (by decide +kernel), in_order (by decide +kernel), by decide +kernel⟩

/-- The flags that a thin pour passes on (R8), and the id after 65,535 where 65,535 and 0 are taken (R3). -/
theorem witness_PourLayers_flags :
    let r : Layer := { layer 2 .pouring 153000 153299 5 with flags := { noLayerFlags with longPour := true } }
    let l : Lco := { lcoCold with column := [layer 1 .placed 152000 153000 0, r], depthRef := some 153000 }
    ((endLayer 152340 300 .yielded l).column.map fun x => (x.id, x.flags.merged, x.flags.longPour, x.flags.yieldEnded)) =
        [(1, true, true, true)] ∧
      (let o := openLayer 152340
          { lcoCold with
            column := [layer 65535 .placed 152000 153000 0, layer 0 .placed 153000 154000 0], nextId := 65535 }
       (o.column.getLast?.map Layer.id, o.nextId) = (some 1, 2)) := by
  decide +kernel

/-- A frame shift of 1,000 up moves the records, and 153,340 releases the older one and leaves the younger EXITING (R9, R11). -/
theorem witness_PourLayers_shift :
    let l : Lco := { lcoCold with column := [layer 1 .placed 150000 152000 7, layer 2 .placed 152000 999500 8], depthRef := some 5 }
    let t := shiftColumn 1000 153340 l
    (t.column.map fun r => (r.id, r.state, r.bottom, r.top, r.maturity)) = [(2, .exiting, 153000, 1000000, 8)] ∧
      (t.depthRef, t.releaseTotal, t.nextId) = (some 1005, 1, 0) ∧
      (releasePass 151999 l).column.map Layer.state = [.exiting, .placed] ∧ (releasePass 152000 l).releaseTotal = 1 := by
  decide +kernel

/-- A table of 47 entries. -/
def fullTable : List Peer := (List.range 47).map fun i => peer (10 + i) (i % 16) 152340 true .climb .closed .dry 0

theorem witness_LevelTaken :
    PostTaken 13 (.level (levelPost 15 152340 .closed .dry)) [] (withPeers climbing) ∧
      PostTaken 13 (.level (levelPost 16 152340 .closed .dry)) [] (withPeers climbing) ∧
      ringOf (withPeers climbing).srs.active = 16 ∧ (findPeer 13 (withPeers climbing).pvw.peers).isSome = true ∧
      findPeer 14 (withPeers climbing).pvw.peers = none ∧
      PostTaken 14 (.level (levelPost 0 152340 .closed .dry)) [] (withPeers climbing) ∧
      PostTaken 61 (.level (levelPost 0 152340 .closed .dry)) []
        (climbing.setPvw { climbing.pvw with peers := fullTable }) ∧
      findPeer 61 fullTable = none ∧ fullTable.length = 47 ∧
      (after (.levelTaken 61 (levelPost 0 152340 .closed .dry))
          (climbing.setPvw { climbing.pvw with peers := fullTable })).pvw.tableFull = true :=
  ⟨climbing_posts _ (by decide) _, climbing_posts _ (by decide) _, by decide +kernel,
    by decide +kernel, by decide +kernel, climbing_posts _ (by decide) _,
    post_meets _ (by decide +kernel) _ (by decide) _, by decide +kernel⟩

/-- A post of sender 0, 63 or the own number 9 leaves the tables and the causes as they are (R29, R144, R163). -/
theorem witness_outside :
    PostOutside 0 (.level (levelPost 5 152340 .closed .dry)) [] (withPeers climbing) ∧
      PostOutside 63 (.claim { need := 3100, number := 5 }) [] (withPeers climbing) ∧
      PostOutside 63 (.gate { state := .opened, needAtOpen := 1, yielded := false }) [] (withPeers climbing) ∧
      PostOutside 0 (.halt { kind := .all, reason := .estop }) [] (withPeers climbing) ∧
      9 = ownStation (withPeers climbing) ∧
      after (.levelTaken 0 (levelPost 5 152340 .closed .dry)) (withPeers climbing) = withPeers climbing ∧
      after (.haltTaken 63 { kind := .all, reason := .estop }) (withPeers climbing) = withPeers climbing ∧
      after (.levelTaken 9 (levelPost 6 152340 .closed .dry)) (withPeers climbing) = withPeers climbing :=
  ⟨climbing_ignores _ (by decide) _, climbing_ignores _ (by decide) _,
    climbing_ignores _ (by decide) _, climbing_ignores _ (by decide) _, by decide +kernel⟩

theorem witness_ClaimAndGateTaken :
    PostTaken 13 (.claim { need := 3100, number := 5 }) [] (withPeers climbing) ∧
      PostTaken 22 (.claim { need := 3100, number := 5 }) [] (withPeers climbing) ∧
      PostTaken 8 (.gate { state := .closed, needAtOpen := 0, yielded := false }) [] (withPeers climbing) ∧
      PostTaken 8 (.gate { state := .jammed, needAtOpen := 15000, yielded := false }) [] (withPeers climbing) ∧
      (findPeer 13 ringPeers).isSome = true ∧ (findPeer 8 ringPeers).isSome = true ∧ findPeer 22 ringPeers = none ∧
      (withPeers climbing).fct.pour = .dry :=
  ⟨climbing_posts _ (by decide) _, climbing_posts _ (by decide) _,
    climbing_posts _ (by decide) _, climbing_posts _ (by decide) _, by decide +kernel⟩

theorem witness_PeerTimes :
    blocksRun (withPeers node) = true ∧ ((findPeer 10 ringPeers).bind Peer.claim).isSome = true ∧
      (findPeer 7 ringPeers).isSome = true ∧ (findPeer 7 ringPeers).bind Peer.claim = none ∧
      (findPeer 7 ringPeers).map Peer.gate = some .closed := by
  decide +kernel

/-- Station 9 yielding, once station 10's gate is open as well. -/
def oversubscribed : State :=
  yielding.setPvw
    { yielding.pvw with
      peers :=
        [{ peer 10 6 152380 true .climb .opening .pouring 0 with needAtOpen := some 3000 },
          { peer 13 9 152382 true .climb .opening .pouring 0 with needAtOpen := some 4100 }] }

/-- Station 9 waiting for a place. -/
def wanting : State :=
  (climbing.setFct { climbing.fct with pour := .want }).setMsq
    { climbing.msq with table := { climbing.msq.table with fill := good 2500 } }

theorem witness_FeedSignals :
    oversubscribed.fct.pour = .pouring ∧ oversubscribed.fct.gate = .opened ∧ oversubscribed.pins.gateClosedLimit = false ∧
      oversubscribed.srs.active.gateLimit < 1 + openGates oversubscribed + jammedGates oversubscribed ∧
      oversubscribed.srs.active.gateLimit - closingGates oversubscribed < ownGateRank oversubscribed ∧
      wanting.fct.pour = .want ∧ notClosedGates wanting < wanting.srs.active.gateLimit ∧
      node.fct.pour ≠ .pouring ∧ node.fct.pour ≠ .want := by
  decide +kernel

/-- The yield with the gate OPENING or JAMMED and with the closed limit already on, and the events that signal the feed (R31 to R35,
R44): the posts of station 10, which is CLOSED in `yielding`, the lapse of its claim, and the drop of station 8's open gate. -/
theorem witness_FeedSignals_gates :
    let f (gate : GateState) (limit : Bool) :=
      (signalFeed true true
        ((oversubscribed.setFct { oversubscribed.fct with gate := gate }).setPins
          { oversubscribed.pins with gateClosedLimit := limit })).fct
    ((f .opening false).gate, (f .opening false).pour, (f .opening false).pendingBackoff) = (.closing, .ending, some 2250) ∧
      ((f .opening true).gate, (f .opening true).pour, (f .opening true).backoffLength) = (.closed, .backoff, 2250) ∧
      ((f .jammed true).gate, (f .jammed true).pour) = (.jammed, .ending) ∧
      (after (.levelTaken 10 (levelPost 6 152380 .opened .pouring)) yielding).fct.pour = .pouring ∧
      (after (.claimTaken 13 { need := 1, number := 0 }) oversubscribed).fct.pour = .ending ∧
      (after (.claimLapse 10) (withPeers wanting)).fct.pour = .want ∧
      (after (.peerDrop 8) ((withPeers wanting).setSrs
        { wanting.srs with active := { ringSettings with gateLimit := 1 } })).fct.pour = .claiming := by
  decide +kernel

theorem from_ten (body : PostBody) : PostTaken 10 body [] climbing := post_meets _ (by decide +kernel) 10 (by decide) _

theorem witness_FeedSignals_posts :
    PostTaken 10 (.gate { state := .opening, needAtOpen := 3000, yielded := false }) [] climbing ∧
      PostTaken 10 (.level (levelPost 6 152380 .opened .pouring)) [] climbing ∧
      PostTaken 10 (.claim { need := 1, number := 0 }) [] climbing ∧ findPeer 10 climbing.pvw.peers = none ∧
      (levelPost 6 152380 .opened .pouring).sector < ringOf climbing.srs.active ∧ climbing.pvw.peers.length < 47 :=
  ⟨from_ten _, from_ten _, from_ten _, by decide +kernel⟩

/-- Station 9 with its gate moving and its pour in a state. -/
def moving (gate : GateState) (pour : PourState) (yielded : Bool) : State :=
  (climbing.setFct { climbing.fct with gate := gate, pour := pour, yieldMark := yielded, pendingBackoff := some 2250 }).setPins
    { gateOpenLimit := false, gateClosedLimit := false, beamPresent := false }

theorem witness_GateEvents :
    blocksRun (moving .opening .pouring false) = true ∧ (moving .opening .pouring false).fct.gate = .opening ∧
      (after (.gateOpenLimit true) (moving .opening .pouring false)).fct.gate = .opened ∧
      (moving .closing .ending true).fct.gate = .closing ∧
      (after (.gateClosedLimit true) (moving .closing .ending true)).fct.pour = .backoff ∧
      (after (.gateClosedLimit true) (moving .closing .ending false)).fct.pour = .dry ∧
      (after (.gateClosedLimit true) (moving .closing .dry false)).fct.gate = .closed ∧
      (after .gateTravelTimeout (moving .opening .pouring false)).fct.gate = .jammed ∧
      (after .gateTravelTimeout (moving .opening .pouring false)).fct.pour = .ending ∧
      (after .gateTravelTimeout (moving .closing .ending false)).fct.gate = .jammed ∧
      (moving .opening .pouring false).fct.blocked = false := by
  decide +kernel

/-- Station 9 pouring with this fill gap and pour timer. -/
def pouringAt (gap : Int) (seconds : Nat) : State :=
  ((moving .opened .pouring false).setFct
      { (moving .opened .pouring false).fct with pourSeconds := seconds }).setMsq
    { climbing.msq with table := { climbing.msq.table with fill := good gap } }

/-- The settle decision at the limits of its clauses: a gap of 2,499 and of 2,500, a rank of 2 and of 3. -/
theorem witness_FeedTimes_settle :
    blocksRun claiming = true ∧ claiming.fct.pour = .claiming ∧
      claiming.fct.ownClaim = some { need := 2900, number := 37, sent := true } ∧ ownClaimRank 2900 claiming = 2 ∧
      claiming.srs.active.gateLimit - notClosedGates claiming = 2 ∧ claiming.pins.gateOpenLimit = false ∧
      claiming.srs.active.gReq ≤ fillGap claiming ∧ ownClaimRank 2800 claiming = 3 ∧
      (after .settleDecision (claiming.setMsq
          { claiming.msq with table := { claiming.msq.table with fill := good 2499 } })).fct.pour = .dry ∧
      (after .settleDecision (claiming.setMsq
          { claiming.msq with table := { claiming.msq.table with fill := good 2500 } })).fct.pour = .pouring ∧
      (after .settleDecision (claiming.setPins { claiming.pins with gateOpenLimit := true })).fct.gate = .opened ∧
      (after .settleDecision
          (claiming.setFct
            { claiming.fct with ownClaim := some { need := 2800, number := 37, sent := true } })).fct.pour = .backoff := by
  decide +kernel

/-- The end of a backoff, and the pour timer at a gap of 500 and of 501 and at 599 s and 600 s. -/
theorem witness_FeedTimes_pour :
    (moving .closed .backoff false).fct.pour = .backoff ∧ (pouringAt 501 10).fct.pour = .pouring ∧
      (pouringAt 501 10).fct.gate = .opened ∧ (pouringAt 501 10).pins.gateClosedLimit = false ∧
      (after .pourTimerSecond (pouringAt 500 10)).fct.pour = .ending ∧
      (after .pourTimerSecond (pouringAt 501 598)).fct.pour = .pouring ∧
      (after .pourTimerSecond (pouringAt 501 599)).fct.pour = .ending ∧
      (after .backoffEnd (moving .closed .backoff false)).fct.pour = .dry := by
  decide +kernel

/-! ### Witnesses: the line, the start and the supply -/

/-- A HALT post of a station, as its bytes. -/
def haltBytes (sender : Nat) : List Byte := frameOf sender (.halt { kind := .climb, reason := .spread })

/-- The node with this many posts in its FIFO. -/
def fifoOf (n : Nat) : State :=
  climbing.setLif { climbing.lif with fifo := List.replicate n (orderPost 21 9 2 []) }

theorem witness_ReceiverEvents :
    lineRuns climbing = true ∧ climbing.lif.rx ≠ .errored ∧ (after .framingError climbing).lif.rx = .errored ∧
      judgePost [] = .framing ∧ judgePost ((haltBytes 10).set 6 0) = .check ∧
      judgePost (haltBytes 10) = .clean { sender := 10, body := .halt { kind := .climb, reason := .spread } } ∧
      judgePost (haltBytes 9) = .clean { sender := 9, body := .halt { kind := .climb, reason := .spread } } ∧
      (after (.postReceived (haltBytes 10)) (fifoOf 1)).lif.fifo.length = 2 ∧
      (after (.postReceived (haltBytes 10)) (fifoOf 2)).lif.overruns = 1 ∧
      (after (.startBit 4) climbing).lif.rx = .assembling ∧ (after (.startBit 3) climbing).lif.rx = .ready := by
  decide +kernel

/-- A clean post with the own number in a lift: the SAFE entry with its cut and settling mark, silence, and no HALT post (R40, R141,
R173). A post whose check agrees and whose kind is none of the six is a framing error (R162). -/
theorem witness_ReceiverEvents_own :
    let t := after (.postReceived (haltBytes 9)) lifting
    (modeOf t.mct, t.ssq.phase, t.mct.settling, t.lif.silent) = (.safe, .topdwell, true, true) ∧
      t.lif.haltSlot = none ∧ t.mct.safe = { noSafe with identityClash := true } ∧ lineRuns lifting = true ∧
      (checkOf ([9, 7, 0] ++ checkBytes (crcOf [9, 7, 0])) = 0#16 ∧
        judgePost ([0xC3, 9, 7, 0] ++ checkBytes (crcOf [9, 7, 0])) = .framing) := by
  decide +kernel

theorem witness_ReceiverEvents_taken :
    takenHere climbing { sender := 10, body := .halt { kind := .climb, reason := .spread } } ∧
      ¬ takenHere climbing { sender := 10, body := .reply [20, 1, 0] } ∧ ownStation climbing = 9 ∧
      blocksRun climbing = true :=
  ⟨⟨by decide +kernel, trivial⟩, fun h => h.2, by decide +kernel⟩

theorem witness_AccessGaps :
    (0 < 64 ∧ 63 < 64) ∧ accessGap 9 8 2 = accessGap 9 8 2 ∧ 0 < 1 ∧ accessGap 63 62 0 = 10 ∧ accessGap 62 62 2 = 201 := by
  decide

theorem free_to_send (halt claim gate level reply : Bool) : LineFree (sending halt claim gate level reply) :=
  ⟨by cases halt <;> cases claim <;> cases gate <;> cases level <;> cases reply <;> rfl, rfl, ⟨rfl, rfl⟩, rfl⟩

/-- Each slot in its turn, the quiet time one bit short of the gap and at it, and the states in which no post begins. -/
theorem witness_AccessBegins :
    ((after (.access 9) (sending true true true true true)).lif.transmitter).isSome = false ∧
      ((after (.access 10) (sending true true true true true)).lif.transmitter.map fun x => kindCode x.body) = some 4 ∧
      ((after (.access 74) (sending false true true true true)).lif.transmitter.map fun x => kindCode x.body) = some 3 ∧
      ((after (.access 74) (sending false true false true true)).lif.transmitter.map fun x => kindCode x.body) = some 2 ∧
      ((after (.access 138) (sending false false false true true)).lif.transmitter.map fun x => kindCode x.body) = some 1 ∧
      ((after (.access 137) (sending false false false false true)).lif.transmitter).isSome = false ∧
      ((after (.access 138) (sending false false false false true)).lif.transmitter.map fun x => kindCode x.body) = some 6 ∧
      (after (.access 40) (muting 87)) = muting 87 ∧ lineRuns (muted 0) = true ∧ (muted 0).lif.muted = true ∧ climbing.lif.levelMs = some 0 ∧
      (after .levelTimer climbing).lif.levelSlot.isSome = true := by
  decide +kernel

/-- A bucket of 87 and of 88; a rejoin count of 7 and of 8. -/
theorem witness_GarbleAndMute :
    blocksRun (muting 87) = true ∧ (muting 87).lif.transmitter.isSome = true ∧ (muting 87).lif.bucket < 88 ∧
      (after .garble (muting 87)).lif.muted = false ∧ 88 ≤ (muting 88).lif.bucket ∧
      (after .garble (muting 88)).lif.muted = true ∧ (muted 7).lif.muted = true ∧ (muted 8).lif.rejoinMs = 4000 ∧
      (after .muteLeave (muted 7)).lif.muted = true ∧ (after .muteLeave (muted 8)).lif.muted = false := by
  decide +kernel

/-- MUTE entered with the RESTART's reply in the slot ends the wait; entered without one it does not (R171, R188, R201). -/
theorem witness_GarbleAndMute_restart :
    let s (reply : Bool) (bucket : Nat) : State :=
      restartWaitsAt ((muting bucket).setLif
        { (muting bucket).lif with replySlot := if reply then some { post := [20, 16, 0], stamp := 3 } else none })
    lineRuns (s true 88) = true ∧ (s true 88).ors.restartWaiting = true ∧ blocksRun (s true 88) = false ∧
      (after .garble (s true 88)).srs.life = .restarting ∧ (after .garble (s true 87)).srs.life = .up ∧
      (after .garble (s false 88)).srs.life = .up ∧ (after .garble (s false 88)).lif.muted = true ∧
      (after .garble (s false 88)).mct = (s false 88).mct ∧
      (after .muteLeave (restartWaitsAt (muted 8))).lif.muted = false ∧
      (after .muteLeave (restartWaitsAt (muted 8))).mct.hold.mute = true := by
  decide +kernel

/-- Station 9 with this post in its transmitter. -/
def inTransmitter (body : PostBody) : State :=
  climbing.setLif
    { climbing.lif with transmitter := some { body := body, stamp := 0, tooLate := false, bytes := frameOf 9 body } }

theorem witness_PostSent :
    lineRuns (inTransmitter (.reply [20, 2, 0])) = true ∧
      ((after .postSent (inTransmitter (.level (ownRecord climbing)))).lif.lastSender) = 9 ∧
      (after .postSent
            ((inTransmitter (.claim { need := 2900, number := 37 })).setFct
              { climbing.fct with
                pour := .claiming, ownClaim := some { need := 2900, number := 37, sent := false } })).fct.ownClaim =
        some { need := 2900, number := 37, sent := true } ∧
      (after .postSent
            ((inTransmitter (.halt { kind := .all, reason := .estop })).setMct
              { climbing.mct with queuedHalt := some { kind := .all, reason := .estop } })).mct.queuedHalt = none ∧
      (after .postSent
            ((inTransmitter (.reply [20, 16, 0])).setOrs { climbing.ors with restartWaiting := true })).srs.life =
        .restarting := by
  decide +kernel

/-- While a RESTART waits: an older REPLY goes out with the own reply still in its slot, and no restart begins; with the slot empty it
does; a CLAIM and a HALT post that go out are reported to no one (R188, R201). -/
theorem witness_PostSent_waiting :
    let waits (s : State) : State := s.setOrs { s.ors with restartWaiting := true }
    let older := waits (inTransmitter (.reply [20, 2, 0]))
    let queued := older.setLif { older.lif with replySlot := some { post := [20, 16, 0], stamp := 1 } }
    let claim :=
      waits ((inTransmitter (.claim { need := 2900, number := 37 })).setFct
        { climbing.fct with pour := .claiming, ownClaim := some { need := 2900, number := 37, sent := false } })
    let halt :=
      waits ((inTransmitter (.halt { kind := .all, reason := .estop })).setMct
        { climbing.mct with queuedHalt := some { kind := .all, reason := .estop } })
    lineRuns queued = true ∧ queued.lif.replySlot ≠ none ∧
      ((after .postSent queued).srs.life, (after .postSent queued).ors.restartWaiting, replyIn (after .postSent queued)) =
        (.up, true, some [20, 16, 0]) ∧
      (after .postSent queued).lif.transmitter = none ∧ (after .postSent older).srs.life = .restarting ∧
      ((after .postSent claim).lif.transmitter, (after .postSent claim).fct) = (none, claim.fct) ∧
      ((after .postSent halt).lif.transmitter, (after .postSent halt).mct) = (none, halt.mct) := by
  decide +kernel

/-- The node stopped in a stroke 116 tenths up, with an empty retention area, and after a commanded restart began. -/
def stoppedInStroke : State :=
  after (.powerFail true)
    (lifting.setSsq
      { lifting.ssq with
        phase := .topdwell
        stroke := some { strokeOf 140 with startSample := some (sampleAt 10 10 10 10), topSample := some (sampleAt 126 126 126 126) } })

theorem witness_StartBuilds :
    climbing.srs.life = .up ∧ stoppedNode.srs.life ≠ .up ∧ stoppedNode.srs.areaValid = true ∧
      (stoppedNode.srs.area.map Retained.whileStroking) = some false ∧
      (stoppedInStroke.srs.area.map Retained.whileStroking) = some true ∧
      (stoppedInStroke.srs.area.map Retained.extension) = some 116 ∧
      (after (.start restInputs []) stoppedInStroke).ssq.height = 152441 ∧
      (after (.start restInputs []) stoppedInStroke).ssq.heightLimit = false ∧
      (after .retentionLost stoppedNode).srs.areaValid = false ∧
      (after (.start restInputs []) (after .retentionLost stoppedNode)).lco = lcoCold ∧
      ((after (.restart 20 9) (node.setLif { node.lif with muted := true })).srs.area.map Retained.atRestart) = some true := by
  decide +kernel

/-- The posts and the pour state of a start (R114, R154): the GATE post and the HALT post of an active E-stop; and, where a good FILL
conversion is among those heard, the claim that follows at the end of step 3 (R101, R102). -/
theorem witness_StartBuilds_posts :
    let s := after (.start { restInputs with estopActive := true, gateClosedLimit := false } []) stoppedNode
    let toFill : List StartEvent := List.replicate 5 (.conversion 1000)
    let t := after (.start restInputs (toFill ++ [.conversion 1000])) stoppedNode
    s.lif.gateSlot.map Slot.post = some { state := .closing, needAtOpen := 0, yielded := false } ∧
      s.lif.haltSlot.map Slot.post = some { kind := .all, reason := .estop } ∧ s.fct.pour = .dry ∧
      pourBlocked s = true ∧ (after (.start restInputs []) stoppedNode).lif.haltSlot = none ∧
      (t.msq.table.fill.value, pourBlocked t) = (some 3662, false) ∧
      (t.fct.pour, t.fct.claimNumber, t.lif.claimSlot.map Slot.post) = (.claiming, 1, some { need := 3662, number := 1 }) := by
  decide +kernel

/-- A block that the load takes and one that it refuses; the identity clash of a post heard in steps 1 to 3 (R40, R194, R200); and the
column after 10 minutes of outage and a stroke credit of 101 tenths, which releases the older record (R9, R11, R24, R91). -/
theorem witness_StartBuilds_load :
    let heard := after (.start restInputs [.post (haltBytes 9)]) stoppedNode
    let col := [layer 1 .placed 152000 152340 100, layer 2 .placed 152340 158000 50]
    let s := stoppedInStroke.setSrs
      { stoppedInStroke.srs with area := stoppedInStroke.srs.area.map fun a => { a with column := col }, outage := 10 }
    let t := after (.start restInputs []) s
    loadsGood ringSettings true = true ∧ loadsGood ringSettings false = false ∧
      loadsGood { ringSettings with mStick := 99999 } true = false ∧ loadsGood defaultSettings true = false ∧
      (heard.lif.silent, heard.mct.safe.identityClash) = (true, true) ∧
      (after (.start restInputs [.post (haltBytes 10)]) stoppedNode).lif.silent = false ∧
      (t.lco.column.map fun r => (r.id, r.state, r.bottom, r.top, r.maturity)) = [(2, .exiting, 152441, 158101, 1250)] ∧
      t.lco.releaseTotal = 1 ∧ t.ssq.height = 152441 := by
  decide +kernel

/-- A stroke credit that brings own height to exactly 1,000,000 sets the height-limit mark (R89, R91). -/
theorem test_credit_to_limit :
    let top (h : Int) :=
      (after (.start restInputs [])
        (stoppedInStroke.setSrs
          { stoppedInStroke.srs with area := stoppedInStroke.srs.area.map fun a => { a with height := h } })).ssq
    ((top 999899).height, (top 999899).heightLimit) = (1000000, true) ∧
      ((top 999898).height, (top 999898).heightLimit) = (999999, false) := by
  decide +kernel

/-- The check of a block never written does not agree, and one changed field is found (R191, R194). -/
theorem test_stored_check :
    blankBlock.checkAgrees = false ∧ (writtenBlock ringSettings).checkAgrees = true ∧
      ({ writtenBlock ringSettings with fields := { ringSettings with station := 10 } } : StoredBlock).checkAgrees = false := by
  decide +kernel

/-- Step 4 before and after the pass, with and without the calibration stroke; a RESTART that waits in step 4 has its join listen,
which ends its wait (R188). -/
theorem witness_StartSteps :
    let waiting := (deciding false).setOrs { node.ors with restartWaiting := true }
    (blocksRun (deciding false) = true ∧ (deciding false).msq.passDone = false ∧ (deciding true).msq.passDone = true) ∧
      lineRuns waiting = true ∧ blocksRun waiting = false ∧ waiting.srs.step = .deciding ∧
      (after .startCalibrationStep
            ((deciding true).setSrs { (deciding true).srs with calibrationPending := true })).ssq.phase = .pressurize ∧
      (after .joinListenEnd (after .startCalibrationStep waiting)).lif.access = true ∧
      (after .startCalibrationStep (deciding true)).srs.step = .joinListen := by
  decide +kernel

/-- The supply lost with a write in progress: the check disagrees whatever the write left. -/
theorem witness_SupplyEvents_torn :
    restartWaits.srs.write.isSome = true ∧
      ∃ b, (after (.powerFail true) restartWaits).srs.stored = some b ∧ b.checkAgrees = false :=
  ⟨rfl, _, rfl, tornBlock_disagrees _⟩

theorem witness_SupplyEvents :
    climbing.srs.life = .up ∧ climbing.ors.restartWaiting = false ∧ stoppedNode.srs.life = .stopped ∧
      (after (.powerFail false) climbing).srs.areaValid = false ∧ (after .storeWriteDone restartWaits).srs.life = .restarting := by
  decide +kernel

/-! ### Witnesses: the planner and the stroke -/

/-- The node of the laser correction of chapter 4. -/
def beamNode (plane : Int) : State :=
  ((climbing.setSsq { climbing.ssq with height := 162390, plane := some plane }).setPins
    { climbing.pins with beamPresent := true }).setMsq
    { climbing.msq with table := { climbing.msq.table with beam := good (-430) } }

theorem witness_CycleExpiry :
    blocksRun levelNode = true ∧ levelNode.cpl.cycleMs ≠ none ∧ lifting.ssq.phase ≠ .idle ∧ levelNode.ssq.phase = .idle ∧
      (currentRecord levelNode).spreadExceeded = some false ∧ (currentRecord levelNode).allowance = some 110 ∧
      levelNode.msq.chain = none ∧ (currentRecord node).spreadExceeded = none ∧ (currentRecord node).allowance = some 0 ∧
      (currentRecord (levelNode.setSsq { levelNode.ssq with height := 151000 })).spreadExceeded = some true ∧ levelNode.ssq.plane = none := by
  decide +kernel

/-- A spread check that fails enters SAFE by SPREAD, with its HALT post (R52, R141, R143). -/
theorem witness_CycleExpiry_spread :
    let t := after .cycleExpiry (levelNode.setSsq { levelNode.ssq with height := 151000 })
    (modeOf t.mct, t.mct.safe, t.ssq.phase) = (.safe, { noSafe with spread := true }, .idle) ∧
      t.lif.haltSlot.map Slot.post = some { kind := .climb, reason := .spread } := by
  decide +kernel

/-- A bind with a pour open, for which the own need at open is raised to 15,000. -/
theorem witness_CycleExpiry_bind :
    let s :=
      (levelNode.setLco { levelNode.lco with column := [layer 1 .placed 152340 158390 184300] }).setFct
        { levelNode.fct with gate := .opened, pour := .pouring, needAtOpen := some 2900 }
    (currentRecord s).bind = true ∧ s.mct.safe.spread = false ∧ s.fct.needAtOpen.getD 0 < 15000 ∧
      (after .cycleExpiry s).fct.needAtOpen = some 15000 := by
  decide +kernel

/-- The laser height 1,000 and 1,001 tenths off at a null cycle, and the adoption there; the nodes are in SETUP, where every expiry is a
null cycle (R50, R82, R83). -/
theorem witness_CycleExpiry_null :
    let s (plane : Int) (valid : Bool) : State :=
      (beamNode plane).setMct node.mct |>.setSsq { (beamNode plane).ssq with heightValid := valid }
    let h (plane : Int) (valid : Bool) : Int × Bool :=
      ((after .cycleExpiry (s plane valid)).ssq.height, (after .cycleExpiry (s plane valid)).ssq.laserDisagree)
    (currentRecord (s 172960 true)).allowance = some 0 ∧ currentSpread (s 172960 true) = none ∧
      (currentRecord (s 172960 true)).bind = false ∧ (h 172960 true, h 172961 true) = ((162640, false), (162390, true)) ∧
      h 174000 false = (164430, false) ∧ (s 172960 true).ssq.phase = .idle := by
  decide +kernel

theorem witness_CycleExpiry_beam :
    BeamSeen 172960 (-430) (beamNode 172960) ∧ (laserAt 172960 (-430) (beamNode 172960) - 162390).natAbs = 1000 ∧
      ¬ BeamSeen 172960 (-430) climbing :=
  ⟨⟨rfl, rfl, ⟨rfl, rfl⟩, by decide⟩, by decide +kernel, fun h => absurd h.present (by decide +kernel)⟩

/-- The forms and the bases of the reference, and a spread of 300 and of 301. -/
theorem witness_AllowanceRules :
    (currentRecord levelNode).form = .level ∧
      (currentRecord ((withPeers holding).setLco levelNode.lco)).form = .creep ∧
      (currentRecord (holding.setMct { holding.mct with hold := { noHold with haltAll := true } })).form = .hold ∧
      (currentRecord (valveOpen true)).form = .reference ∧ (currentRecord node).form = .noForm ∧
      (currentRecord climbing).basis = .self ∧
      (currentRecord (climbing.setPvw { climbing.pvw with peers := ringPeers.take 2 })).basis = .oneNeighbour ∧
      (currentRecord (climbing.setPvw { climbing.pvw with peers := ringPeers.drop 4 })).basis = .oneNeighbour ∧
      (currentRecord (climbing.setPvw
        { climbing.pvw with peers := [peer 13 12 152640 true .climb .closed .dry 0] })).href.isSome = true ∧
      currentSpread (climbing.setPvw
          { climbing.pvw with peers := [peer 8 4 152740 true .climb .closed .dry 0] }) = some false ∧
      (nodeHeights (node.setSsq { node.ssq with heightValid := false })) = [] := by
  decide +kernel

/-- The searches: a neighbour one sector off on each side, one whose sector is clashed, and none within the distance; the spread
exceeded; and a node whose height is invalid (R38, R41, R52, R60). -/
theorem witness_AllowanceRules_search :
    let near (ps : List Peer) : State := climbing.setPvw { climbing.pvw with peers := ps }
    let at_ (station sector : Nat) : Peer := peer station sector 152400 true .climb .closed .dry 0
    let found (ps : List Peer) : List Nat :=
      match nodeNeighbours (near ps) with
      | .two a b => [a.station, b.station]
      | .one a => [a.station]
      | .none => []
    [found [at_ 8 4, at_ 10 6], found [at_ 7 3, at_ 8 4, at_ 12 4], found [at_ 13 13], found [at_ 13 11]] =
        [[8, 10], [7], [], [13]] ∧
      (currentRecord (levelNode.setSsq { levelNode.ssq with height := 151000 })).spreadExceeded = some true ∧
      (currentRecord levelNode).spreadExceeded = some false ∧ (currentRecord node).spreadExceeded = none ∧
      (currentRecord (node.setSsq { node.ssq with heightValid := false })).offset = none := by
  decide +kernel

/-- The node in this phase of a stroke. -/
def inPhase (phase : Phase) : State := lifting.setSsq { lifting.ssq with phase := phase, liftEnable := decide (phase = .lift) }

theorem witness_StrokeTimes :
    blocksRun lifting = true ∧ lifting.ssq.stroke.isSome = true ∧ (after .liftTimeout lifting).ssq.phase = .topdwell ∧
      (after .topLimitCapture lifting).ssq.phase = .topdwell ∧ (after .topLimitCapture node).ssq.chatter = 1 ∧
      (after .pressurizeTimeout (inPhase .pressurize)).ssq.phase = .topdwell ∧
      (after .topTrigger (inPhase .topdwell)).msq.chain.isSome = true ∧
      (after .topdwellEnd (inPhase .topdwell)).ssq.phase = .release ∧
      (after .releaseTimeout (inPhase .release)).ssq.phase = .settle ∧
      (after .rampPeriod (inPhase .pressurize)).ssq.dutyInForce = 100 := by
  decide +kernel

theorem witness_StrokeTimes_chain :
    let busy := (inPhase .topdwell).setMsq { lifting.msq with chain := some { tag := .start, done := [] } }
    let full := busy.setMsq { busy.msq with pendingTrigger := some .finish }
    (after .topTrigger busy).msq.pendingTrigger = some .top ∧ (after .topTrigger full).msq.overrun = true ∧
      ((after .topTrigger full).ssq.stroke.bind Stroke.topSample).isSome = true := by
  decide +kernel

/-- An END trigger that finds one in flight and one pending is lost, and the stroke is complete at once (R74, R126). -/
theorem witness_StrokeTimes_lost :
    let s := after .releaseTimeout
      ((inPhase .release).setMsq
        { lifting.msq with chain := some { tag := .start, done := [] }, pendingTrigger := some .top })
    (s.msq.overrun, s.ssq.phase, s.msq.pendingTrigger) = (true, .idle, some .top) ∧
      (s.ssq.history.head?.map fun r => (r.cause, r.releaseMs, r.substituted)) = some (.noReturn, 5000, true) ∧
      (after .topLimitCapture climbing).ssq.chatter = 1 ∧ climbing.ssq.stroke = none := by
  decide +kernel

theorem witness_CoilCheck :
    blocksRun climbing = true ∧ climbing.mct.safe = noSafe ∧ (valveOpen true).mct.safe ≠ noSafe ∧
      (after (.coilCheck .lift true) lifting).ssq.phase = .topdwell ∧
      (after (.coilCheck .lift true) climbing).lif.haltSlot.map Slot.post = some { kind := .climb, reason := .valve } := by
  decide +kernel

/-- The node with this channel in flight. -/
def converting (scan : Channel) (s : State) : State := s.setMsq { s.msq with scan := scan }

/-- A chain whose fifth conversion is in flight. -/
def lastOfChain : State :=
  (inPhase .pressurize).setMsq
    { lifting.msq with
      chain := some { tag := .start, done := [⟨some 12, true⟩, ⟨some 15, true⟩, ⟨some 10, true⟩, ⟨some 14, true⟩] } }

/-- A stroke in PRESSURIZE before its START sample. -/
def pressurizing : State := (inPhase .pressurize).setSsq { (inPhase .pressurize).ssq with stroke := some (strokeOf 140) }

theorem witness_ConversionComplete :
    blocksRun climbing = true ∧ climbing.msq.chain = none ∧
      announcesGood .fill 1000 climbing.msq.table.fill = true ∧
      (after (.conversionComplete 1000) (converting .fill climbing)).msq.table.fill.value = some 3662 ∧
      (after (.conversionComplete 1000) (converting .fill climbing)).fct.pour = .claiming ∧
      channelInFlight lastOfChain.msq = .pres ∧ (lastOfChain.msq.chain.map fun c => c.done.length) = some 4 ∧
      ((after (.conversionComplete 41) lastOfChain).ssq.stroke.bind Stroke.startSample) = some (sampleAt 12 15 10 14) ∧
      (after (.conversionComplete 1229) (converting .pres pressurizing)).ssq.phase = .lift ∧
      (after (.conversionComplete 1228) (converting .pres pressurizing)).ssq.phase = .pressurize ∧
      (after (.conversionComplete 3278) (converting .pres climbing)).mct.safe.overpressure = true ∧
      (after (.conversionComplete 3277) (converting .pres climbing)).mct.safe.overpressure = false := by
  decide +kernel

/-- Two faulted jacks make the sense condition at the second one's third bad conversion. -/
theorem witness_ConversionComplete_sense :
    let bad : ChanEntry := { value := none, state := .faulted, fresh := false, outCount := 3, goodCount := 0 }
    let s :=
      converting .j2 (climbing.setMsq
        { climbing.msq with
          table := { climbing.msq.table with j1 := bad, j2 := { good 12 with outCount := 2 } } })
    (after (.conversionComplete 4095) s).mct.hold.sense = true ∧ (after (.conversionComplete 50) s).mct.hold.sense = false := by
  decide +kernel

/-- The same in an injected chain: PRES, the last of the START chain, reaches P_lift and enters LIFT with the sample stored, and the
second faulted jack makes the sense condition in the chain (R69, R123, R129). -/
theorem witness_ConversionComplete_chain :
    let q (raw : BitVec 12) := (after (.conversionComplete raw) (lastOfChain.setSsq pressurizing.ssq)).ssq
    let bad : ChanEntry := { value := none, state := .faulted, fresh := false, outCount := 3, goodCount := 0 }
    let s :=
      climbing.setMsq
        { climbing.msq with
          chain := some { tag := .top, done := [⟨none, false⟩] }
          table := { climbing.msq.table with j1 := bad, j2 := { good 12 with outCount := 2 } } }
    announcesGood .pres 1229 lastOfChain.msq.table.pres = true ∧
      ((q 1229).phase, (q 1228).phase) = (.lift, .pressurize) ∧
      (((q 1229).stroke.bind Stroke.startSample).map Sample.j2, ((q 1228).stroke.bind Stroke.startSample).map Sample.j2) =
        (some ⟨some 15, true⟩, some ⟨some 15, true⟩) ∧
      channelInFlight s.msq = .j2 ∧ (after (.conversionComplete 4095) s).mct.hold.sense = true ∧
      (after (.conversionComplete 4095) s).msq.sense = true := by
  decide +kernel

/-- A good PRES result of 3,201 in LIFT, above a P_over of 3,200: the cut of the stroke, the settling mark, the HALT post, the pour block
and the mode; and one of 3,200, which brings none of it (R78, R79, R99, R141, R143). -/
theorem witness_ConversionComplete_overpressure :
    let s := converting .pres ((lifting.setFct (pouringAt 2900 10).fct).setPins (pouringAt 2900 10).pins)
    let t (raw : BitVec 12) := after (.conversionComplete raw) s
    s.ssq.phase = .lift ∧ s.mct.safe = noSafe ∧ s.srs.active.pOver = 3200 ∧ scaledValue .pres 3278 = 3201 ∧
      scaledValue .pres 3277 = 3200 ∧
      ((t 3278).ssq.phase, (t 3278).ssq.liftEnable, (t 3278).ssq.stroke.bind Stroke.riseEnd, (t 3278).ssq.overpressure) =
        (.topdwell, false, some .cut, true) ∧
      (modeOf (t 3278).mct, (t 3278).mct.settling, (t 3278).mct.safe) = (.safe, true, { noSafe with overpressure := true }) ∧
      (t 3278).lif.haltSlot.map Slot.post = some { kind := .climb, reason := .overpressure } ∧
      ((t 3278).fct.blocked, (t 3278).fct.pour) = (true, .ending) ∧
      ((t 3277).ssq.phase, (t 3277).lif.haltSlot.isSome, (t 3277).fct.pour, modeOf (t 3277).mct) =
        (.lift, false, .pouring, .climb) := by
  decide +kernel

/-- The sense condition begins in CLIMB, and HOLD is entered with a LEVEL post wanted; it ends where SENSE is the last hold, and CLIMB
is taken up again, an amendment ended; with OPERATOR beside it the node stays in HOLD (R129, R135, R140). -/
theorem witness_ConversionComplete_hold :
    let bad : ChanEntry := { value := some 12, state := .faulted, fresh := false, outCount := 3, goodCount := 2 }
    let begins := converting .j2 (climbing.setMsq
      { climbing.msq with table := { climbing.msq.table with j1 := bad, j2 := { good 12 with outCount := 2 } } })
    let ends (hold : HoldSet) :=
      converting .j2 (((climbing.setMsq
        { climbing.msq with sense := true, table := { climbing.msq.table with j1 := bad, j2 := bad } }).setMct
          { climbing.mct with hold := { hold with sense := true } }).setOrs { climbing.ors with amend := true })
    let b := after (.conversionComplete 4095) begins
    let e (hold : HoldSet) := after (.conversionComplete 82) (ends hold)
    (modeOf begins.mct, modeOf b.mct, b.mct.hold, b.lif.levelSlot.isSome) =
        (.climb, .hold, { noHold with sense := true }, true) ∧
      (modeOf (ends noHold).mct, modeOf (e noHold).mct, (e noHold).ors.amend, (e noHold).lif.levelSlot.isSome) =
        (.hold, .climb, false, true) ∧
      (modeOf (e { noHold with operator := true }).mct, (e { noHold with operator := true }).ors.amend,
          (e { noHold with operator := true }).lif.levelSlot.isSome) = (.hold, true, false) := by
  decide +kernel

/-- The table with these four jacks good. -/
def jacksAt (a b c d : Int) (s : State) : State :=
  s.setMsq { s.msq with table := { s.msq.table with j1 := good a, j2 := good b, j3 := good c, j4 := good d } }

/-- The phase, rise end, faults and lift duration that a conversion leaves. -/
def liftLeft (raw : BitVec 12) (s : State) : Phase × Option RiseEnd × List StrokeFault × Option Nat :=
  let q := (after (.conversionComplete raw) s).ssq
  (q.phase, q.stroke.bind Stroke.riseEnd, (q.stroke.map Stroke.faults).getD [], q.stroke.bind Stroke.liftDuration)

/-- A conversion of J4 in LIFT: a mean travel of 128 and of 127 against a target of 128, a skew of 41 and of 40 against a limit of 40,
and two good transducers. -/
theorem witness_ConversionComplete_lift :
    let s := converting .j4 (jacksAt 138 139 140 0 lifting)
    let two := s.setMsq { s.msq with table := { s.msq.table with j1 := entryNotValid, j2 := entryNotValid } }
    announcesGood .j4 943 s.msq.table.j4 = true ∧
      [liftLeft 943 s, liftLeft 942 s, liftLeft 663 s, liftLeft 670 s, liftLeft 943 two] =
        [(.topdwell, some .target, [], some 1530), (.lift, none, [], none), (.topdwell, none, [.skew], some 1530),
          (.lift, none, [], none), (.topdwell, none, [.transducer], some 1530)] := by
  decide +kernel

/-- The extension at save (R90): in LIFT and PRESSURIZE by the latest results, after the TOP sample by that sample, over the jacks good
in both; a negative sum and no jack at all give 0. -/
theorem witness_SupplyEvents_extension :
    let saved (s : State) := (after (.powerFail true) s).srs.area.map Retained.extension
    let faulted : ChanEntry := { value := some 500, state := .faulted, fresh := false, outCount := 3, goodCount := 0 }
    let three (s : State) := s.setMsq { s.msq with table := { s.msq.table with j4 := faulted } }
    let topped :=
      (inPhase .topdwell).setSsq
        { (inPhase .topdwell).ssq with
          stroke := some { strokeOf 140 with startSample := some (sampleAt 10 11 12 10), topSample := some (sampleAt 60 61 62 61) } }
    saved (jacksAt 30 31 32 33 lifting) = some 20 ∧ saved (three (jacksAt 30 31 32 33 lifting)) = some 20 ∧
      saved (jacksAt 30 31 32 33 (inPhase .pressurize)) = some 20 ∧ saved (jacksAt 9 10 11 9 lifting) = some 0 ∧
      saved lifting = some 0 ∧ saved (three topped) = some 50 ∧ saved (jacksAt 30 31 32 33 (inPhase .topdwell)) = some 20 := by
  decide +kernel

/-- The return condition at 30 and 31 tenths and at 50 and 51 bar-tenths of P_rest, the END trigger at once, pending and lost. -/
theorem witness_ConversionComplete_release :
    let home := jacksAt 20 30 10 30 (inPhase .release)
    let s := converting .pres
      (home.setSsq
        { home.ssq with releaseOn := true, stroke := some { strokeOf 140 with releaseEntry := some 1000 } })
    let busy (p : Option Tag) :=
      (converting .j4 s).setMsq
        { s.msq with scan := .j4, chain := some { tag := .top, done := [⟨some 20, true⟩] }, pendingTrigger := p }
    let ends (raw : BitVec 12) (s : State) :=
      let t := after (.conversionComplete raw) s
      (t.ssq.phase, t.ssq.releaseOn, t.ssq.stroke.bind Stroke.releaseDuration, t.msq.chain.map Chain.tag)
    ends 52 s = (.settle, false, some 600, some .finish) ∧ ends 53 s = (.release, true, none, none) ∧
      ends 52 (jacksAt 20 31 10 30 s) = (.release, true, none, none) ∧
      (after (.conversionComplete 205) ((busy none).setMsq
        { (busy none).msq with table := { (busy none).msq.table with pres := good 50 } })).msq.pendingTrigger = some .finish ∧
      (after (.conversionComplete 205) ((busy (some .start)).setMsq
        { (busy none).msq with
          pendingTrigger := some .start
          table := { (busy none).msq.table with pres := good 50 } })).ssq.strokeCount = 1 := by
  decide +kernel

/-- The END chain's fifth conversion completes the stroke, and a TOP trigger that waited is started. -/
theorem witness_ConversionComplete_end :
    let s := (inPhase .settle).setMsq
      { lifting.msq with
        pendingTrigger := some .top
        table := { lifting.msq.table with pres := good 40 }
        chain := some { tag := .finish, done := [⟨some 12, true⟩, ⟨some 15, true⟩, ⟨some 10, true⟩, ⟨some 14, true⟩] } }
    let t := after (.conversionComplete 41) s
    (t.ssq.phase, t.ssq.stroke, t.ssq.strokeCount) = (.idle, none, 1) ∧
      (t.msq.chain, t.msq.pendingTrigger) = (some { tag := .top, done := [] }, none) ∧
      announcesGood .pres 41 s.msq.table.pres = true ∧ (entryAfter .pres 41 s.msq.table.pres).state = .good ∧
      ((41 * 4000 / 4096 : Nat) : Int) ≤ s.srs.active.pOver := by
  decide +kernel

/-- A good FILL result raises the POURING record's top and ends the pour at a gap of 498 but not of 501; below G_req WANT ends, and
the first good result of all makes the column known. -/
theorem witness_ConversionComplete_fill :
    let pour := converting .fill
      ((pouringAt 900 10).setLco { pouringNode.lco with column := [layer 1 .pouring 152000 160000 0], depthRef := some 152000 })
    let top (raw : BitVec 12) := (after (.conversionComplete raw) pour).lco.column.map Layer.top
    let fresh := converting .fill (climbing.setLco lcoCold)
    (top 137 = [163839] ∧ (after (.conversionComplete 137) pour).fct.pour = .pouring) ∧
      (top 136 = [163842] ∧ (after (.conversionComplete 136) pour).fct.pour = .ending) ∧
      (after (.conversionComplete 82) pour).lco.column.map Layer.state = [.exiting] ∧
      (after (.conversionComplete 682) (converting .fill wanting)).fct.pour = .dry ∧
      (after (.conversionComplete 683) (converting .fill wanting)).fct.pour = .want ∧
      ((after (.conversionComplete 1000) fresh).lco.column.map fun r => (r.id, r.bottom, r.top, r.flags.synthetic)) =
        [(0, 152340, 160678, true)] := by
  decide +kernel

/-- FILL turning FAULTED begins the block, which ends a pour; turning GOOD it ends the block, and the node claims. -/
theorem witness_ConversionComplete_block :
    let fault (s : State) : State :=
      converting .fill (s.setMsq { s.msq with table := { s.msq.table with fill := { good 2900 with outCount := 2 } } })
    let blocked := (converting .fill climbing).setFct { climbing.fct with blocked := true }
    let valid := blocked.setMsq { blocked.msq with table := { blocked.msq.table with fill := entryNotValid } }
    ((after (.conversionComplete 0) (fault (pouringAt 900 10))).fct.pour = .ending ∧
        (after (.conversionComplete 0) (fault (pouringAt 900 10))).fct.blocked = true) ∧
      (after (.conversionComplete 0) (fault wanting)).fct.pour = .dry ∧
      ((after (.conversionComplete 1000) valid).fct.pour = .claiming ∧
        (after (.conversionComplete 1000) valid).fct.blocked = false) := by
  decide +kernel

theorem witness_ChannelStates :
    let faulted (n : Nat) : ChanEntry := { value := some 3625, state := .faulted, fresh := false, outCount := 3, goodCount := n }
    (faulted 2).state ≠ .absent ∧ rawInRange .fill 82 = true ∧ rawInRange .fill 81 = false ∧ rawInRange .fill 4013 = true ∧
      rawInRange .fill 4014 = false ∧ (entryAfter .fill 82 (faulted 1)).state = .faulted ∧
      (entryAfter .fill 82 (faulted 2)).state = .good ∧
      (entryAfter .fill 81 { good 3625 with outCount := 1 }).state = .good ∧
      (entryAfter .fill 81 { good 3625 with outCount := 2 }).state = .faulted ∧
      (entryAfter .fill 82 entryNotValid).state = .good := by
  decide

theorem witness_ScaledValues :
    4095 ≤ 4095 ∧ isJack .j4 = true ∧ scaledValue .j1 16 = 2 ∧ scaledValue .j1 4013 = 587 ∧ scaledValue .pres 16 = 15 ∧
      scaledValue .pres 4013 = 3918 ∧ scaledValue .fill 82 = 300 ∧ scaledValue .fill 4013 = 14696 ∧
      scaledValue .t1 82 = -376 ∧ scaledValue .t4 4013 = 775 ∧ scaledValue .beam 82 = -480 ∧ scaledValue .beam 4013 = 479 ∧
      rawInRange .j1 15 = false := by
  decide

/-- The beam seen, and the laser height 1,000 and 1,001 tenths off the height climbed to; a calibration stroke that succeeds, with the
block free to be written and with a write in progress. -/
theorem witness_SettleAndLaser :
    let st := { strokeOf 110 with riseEnd := some .target }
    let c := { newStroke .calibration none with
               riseEnd := some .full, startSample := some (sampleAt 10 10 10 10), topSample := some (sampleAt 210 210 210 210) }
    let w : BlockWrite :=
      { block := { ringSettings with fullStroke := some 200, calibrateNext := 0, smax := 190 }, forStore := false }
    let settles (plane : Int) := (completeSettle st (beamNode plane)).ssq
    (laserCorrect (beamNode 172960)).ssq.height = 162640 ∧ (laserCorrect (beamNode 172961)).ssq.laserDisagree = true ∧
      ((settles 172960).height, (settles 172960).history.map HistoryRec.laser) = (162640, [some 250]) ∧
      ((settles 172961).height, (settles 172961).laserDisagree, (settles 172961).history.map HistoryRec.laser) =
        (162390, true, [none]) ∧
      st.laser = none ∧ st.kind ≠ .calibration ∧ calibratedStroke c = some 200 ∧ c.laser = none ∧
      (completeSettle c node).srs.write = some w ∧ (completeSettle c node).srs.stored = none ∧
      (completeSettle c (node.setSrs { node.srs with write := some w })).srs.writesWaiting = [w] ∧
      (completeSettle c (node.setSrs { node.srs with loadResult := .default })).srs.write = none := by
  decide +kernel

/-- A stroke with one fault beside a window of sum 1 and of sum 0, and a calibration beside a window of sum 2: STROKE_REPEAT with its HALT
post and mode, and no change of either (R77, R88, R141, R143). -/
theorem witness_SettleAndLaser_repeat :
    let settling (window : List Nat) : State :=
      ((inPhase .settle).setLif { lifting.lif with levelSlot := none }).setMct
        { lifting.mct with window := window, settling := true }
    let faulty := { strokeOf 110 with faults := [.stall] }
    let c := { newStroke .calibration none with faults := [.stall] }
    let t := completeSettle faulty (settling [0, 1])
    let u := completeSettle faulty (settling [0, 0])
    let v := completeSettle c (settling [1, 1])
    (modeOf t.mct, t.mct.safe, t.mct.settling, t.mct.window) = (.safe, { noSafe with strokeRepeat := true }, false, [1, 0, 1]) ∧
      t.lif.haltSlot.map Slot.post = some { kind := .climb, reason := .strokeRepeat } ∧ t.fct.blocked = true ∧
      ((modeOf u.mct, u.mct.safe, u.mct.window), u.lif.haltSlot, u.fct) = ((.climb, noSafe, [1, 0, 0]), none, lifting.fct) ∧
      ((modeOf v.mct, v.mct.safe, v.mct.window), v.lif.haltSlot, v.fct) = ((.climb, noSafe, [1, 1]), none, lifting.fct) := by
  decide +kernel

/-- The climbed distance over the jacks good in all three samples: three of them, and none (R75); and a calibration of too few jacks,
with a fault, and of 99 tenths (R88). -/
theorem witness_SettleAndLaser_jacks :
    let bad (p : Sample) : Sample := { p with j4 := ⟨some 600, false⟩ }
    let none_ : Sample := { sampleAt 0 0 0 0 with j1 := ⟨none, false⟩, j2 := ⟨none, false⟩, j3 := ⟨none, false⟩, j4 := ⟨none, false⟩ }
    let st (e : Sample) : Stroke :=
      { strokeOf 110 with
        startSample := some (sampleAt 12 15 10 14), topSample := some (sampleAt 128 131 125 130), endSample := some e
        riseEnd := some .target }
    let c (top : Sample) : Stroke :=
      { newStroke .calibration none with startSample := some (sampleAt 10 10 10 10), topSample := some top, riseEnd := some .full }
    travelsTaken (sampleAt 12 15 10 14) (sampleAt 128 131 125 130) (bad (sampleAt 20 24 18 23)) = [116, 116, 115] ∧
      travelsTaken (sampleAt 12 15 10 14) (sampleAt 128 131 125 130) none_ = [] ∧
      (climbedDistance 15 (st (bad (sampleAt 20 24 18 23))), climbedDistance 15 (st none_)) = (100, 0) ∧
      calibratedStroke (c (bad (sampleAt 210 210 210 210))) = some 200 ∧
      calibratedStroke (c { bad (sampleAt 210 210 210 210) with j3 := ⟨none, false⟩ }) = none ∧
      calibratedStroke { c (sampleAt 210 210 210 210) with faults := [.skew] } = none ∧
      (calibratedStroke (c (sampleAt 109 109 109 109)), calibratedStroke (c (sampleAt 110 110 110 110))) = (none, some 100) := by
  decide +kernel

/-- The lamps as delivered, lit and dark: SAFE fast, HOLD steady, POURING slow; FAULT inverted; and blink part 3 is steady. -/
theorem witness_lamps :
    let dark := pouringNode.setLdr { node.ldr with slowOn := false, fastOn := false }
    let held := holding.setSrs { holding.srs with active := defaultSettings }
    (defaultSettings.lamp1, defaultSettings.lamp2, defaultSettings.lamp3) = (36, 24, 10) ∧ held.ldr.lit = true ∧
      lampOutputs held = [false, true, false] ∧ lampOutputs (held.setLdr { held.ldr with lit := false }) = [false, false, false] ∧
      (lampOutput (valveOpen true) 36, lampOutput ((valveOpen true).setLdr dark.ldr) 36) = (true, false) ∧
      (lampOutput held 73, lampOutput held 72, lampOutput held 95) = (true, false, true) ∧
      (lampOutput (held.setLdr dark.ldr) 86, lampOutput (held.setLdr dark.ldr) 82) = (true, false) := by
  decide +kernel

theorem witness_HaltAndInputs :
    PostTaken 10 (.halt { kind := .all, reason := .estop }) [] lifting ∧
      PostTaken 10 (.halt { kind := .climb, reason := .spread }) [] lifting ∧ blocksRun lifting = true ∧
      lifting.mct.estopActive = false ∧ (after (.estopChange true) lifting).mct.estopActive = true ∧
      (after (.estopChange false) (after (.estopChange true) lifting)).mct.hold.estop = true ∧
      (after (.keyChange { run := false, hold := false, service := true }) lifting).mct.key = .service ∧
      (after (.keyChange { run := true, hold := false, service := false }) service).mct.hold.key = false ∧
      true ≠ climbing.pins.beamPresent ∧ climbing.ldr.lit = true ∧
      (after (.beamPresentChange true) climbing).msq.table.beam.state = .notValid ∧
      (after (.blinkPhase true) climbing).ldr.fastOn = false :=
  ⟨post_meets _ (by decide +kernel) _ (by decide) _, post_meets _ (by decide +kernel) _ (by decide) _, by decide +kernel⟩

/-- HALT_ALL and the key in SERVICE begin the pour block, which ends the pour; the key back in RUN ends it, and the key in HOLD
neither (R99, R100). -/
theorem witness_HaltAndInputs_block :
    let s := pouringAt 2900 10
    let halt := after (.haltTaken 10 { kind := .all, reason := .estop }) s
    let key (h r v : Bool) := after (.keyChange { run := r, hold := h, service := v })
    let f (t : State) := (t.fct.blocked, t.fct.gate, t.fct.pour)
    PostTaken 10 (.halt { kind := .all, reason := .estop }) [] s ∧ (f s = (false, .opened, .pouring) ∧
      f halt = (true, .closing, .ending) ∧ f (key false false true s) = (true, .closing, .ending) ∧
      f (key true false false s) = (false, .opened, .pouring) ∧
      f (key false true false (service.setMsq s.msq)) = (false, .closed, .claiming)) :=
  ⟨post_meets _ (by decide +kernel) _ (by decide) _, by decide +kernel⟩

end Sys2Proof.Tests
end

section
/-! The release cap (spec chapter 1, R18): the record that the search from the old end of the column finds gives the cap. -/

namespace Sys2Proof.Machine

/-- The release cap is absent exactly where every record has reached M_rel, an empty column included (R18). -/
theorem crel_eq_none_iff {mRel own : Int} {l : Lco} :
    crel mRel own l = none ↔ ∀ r ∈ l.column, mRel ≤ (r.maturity : Int) := by
  simp only [crel, Option.map_eq_none_iff, List.find?_eq_none, decide_eq_true_eq, Int.not_lt]

/-- The search runs from the old end: the records before `r` have reached M_rel, so `r` is the one found (R18). -/
theorem crel_of_oldest_below {mRel own : Int} {l : Lco} {older younger : List Layer} {r : Layer}
    (hcol : l.column = older ++ r :: younger) (hold : ∀ x ∈ older, mRel ≤ (x.maturity : Int))
    (hr : (r.maturity : Int) < mRel) : crel mRel own l = some (max 0 (r.bottom - own)) := by
  have found : (l.column.find? fun x => decide ((x.maturity : Int) < mRel)) = some r := by
    refine List.find?_eq_some_iff_append.2 ⟨decide_eq_true hr, older, younger, hcol, fun x hx => ?_⟩
    simpa using hold x hx
  rw [crel, found, Option.map_some]

/-- Settles O36: the two outcomes of the search for the oldest record below M_rel. -/
theorem releaseCap : Obligations.ReleaseCap := fun _ _ _ =>
  ⟨crel_eq_none_iff.2, fun _ _ _ => crel_of_oldest_below⟩

end Sys2Proof.Machine
end

section
/-! The readings of the channels (spec chapter 6, R117 to R121): what an entry of the result table becomes at a conversion, row by row
of R119, and the value that a channel's type gives a raw reading. -/

namespace Sys2Proof.Machine

/-! ### The entry after a conversion (R119, R120) -/

theorem entryAfter_of_inRange {c : Channel} {raw : Nat} {e : ChanEntry} (he : e.state ≠ .absent)
    (hr : rawInRange c raw = true) : entryAfter c raw e = entryIn (scaledValue c raw) e := by
  simp [entryAfter, he, hr]

theorem entryAfter_of_outOfRange {c : Channel} {raw : Nat} {e : ChanEntry} (he : e.state ≠ .absent)
    (hr : rawInRange c raw = false) : entryAfter c raw e = entryOut e := by
  simp [entryAfter, he, hr]

/-- An in-range conversion makes every channel GOOD that is not FAULTED. -/
theorem entryIn_of_not_faulted (v : Int) {e : ChanEntry} (he : e.state ≠ .faulted) :
    entryIn v e = { value := some v, state := .good, fresh := true, outCount := 0, goodCount := 0 } := by
  unfold entryIn
  split
  next hf => exact absurd hf he
  next => rfl

/-- A FAULTED channel's first two in-range conversions only count. -/
theorem entryIn_of_counting (v : Int) {e : ChanEntry} (he : e.state = .faulted) (hn : e.goodCount ≤ 1) :
    entryIn v e = { e with goodCount := e.goodCount + 1, fresh := false } := by
  have below : e.goodCount + 1 < 3 := by omega
  simp only [entryIn, he, if_pos below]

/-- A FAULTED channel's third in-range conversion running makes it GOOD with its own value. -/
theorem entryIn_of_recovered (v : Int) {e : ChanEntry} (he : e.state = .faulted) (hn : e.goodCount = 2) :
    entryIn v e = { value := some v, state := .good, fresh := true, outCount := 0, goodCount := 0 } := by
  have reached : ¬ e.goodCount + 1 < 3 := by omega
  simp only [entryIn, he, if_neg reached]

/-- An out-of-range conversion starts a FAULTED channel's recovery anew. -/
theorem entryOut_of_faulted {e : ChanEntry} (he : e.state = .faulted) :
    entryOut e = { e with goodCount := 0, fresh := false } := by
  simp only [entryOut, he]

/-- The first two out-of-range conversions of a channel that is not FAULTED only count. -/
theorem entryOut_of_counting {e : ChanEntry} (he : e.state ≠ .faulted) (hn : e.outCount ≤ 1) :
    entryOut e = { e with outCount := e.outCount + 1, fresh := false } := by
  have below : e.outCount + 1 < 3 := by omega
  unfold entryOut
  split
  next hf => exact absurd hf he
  next => exact if_pos below

/-- The third out-of-range conversion running makes the channel FAULTED. -/
theorem entryOut_of_third {e : ChanEntry} (he : e.state ≠ .faulted) (hn : e.outCount = 2) :
    entryOut e = { e with state := .faulted, outCount := 3, goodCount := 0, fresh := false } := by
  have reached : ¬ e.outCount + 1 < 3 := by omega
  unfold entryOut
  split
  next hf => exact absurd hf he
  next => exact if_neg reached

@[simp] theorem entryOut_value (e : ChanEntry) : (entryOut e).value = e.value := by
  unfold entryOut
  split
  next => rfl
  next => split <;> rfl

/-- An out-of-range reading is never turned into a value, a discarded one of BEAM included (R117, R121). -/
theorem entryAfter_value_of_outOfRange {c : Channel} {raw : Nat} (e : ChanEntry) (hr : rawInRange c raw = false) :
    (entryAfter c raw e).value = e.value := by
  unfold entryAfter
  split
  next => rfl
  next => simp only [hr, Bool.false_eq_true, if_false, entryOut_value]

theorem not_faulted_of_notValid_or_good {e : ChanEntry} (he : e.state = .notValid ∨ e.state = .good) :
    e.state ≠ .faulted := by
  rcases he with he | he <;> simp [he]

/-- Settles O57: in each row of R119's table the entry is the one its conversion, in or out of range, gives. -/
theorem channelStates : Obligations.ChannelStates := by
  intro c raw e present
  refine ⟨fun hin he => ?takesValue, fun hout he hn => ?countsOut, fun hout he hn => ?faults, fun hin he hn => ?countsIn,
    fun hin he hn => ?recovers, fun hout he => ?restarts⟩
  case takesValue =>
    rw [entryAfter_of_inRange present hin, entryIn_of_not_faulted _ (not_faulted_of_notValid_or_good he)]
  case countsOut =>
    rw [entryAfter_of_outOfRange present hout, entryOut_of_counting (not_faulted_of_notValid_or_good he) hn]
  case faults =>
    rw [entryAfter_of_outOfRange present hout, entryOut_of_third (not_faulted_of_notValid_or_good he) hn]
  case countsIn => rw [entryAfter_of_inRange present hin, entryIn_of_counting _ he hn]
  case recovers => rw [entryAfter_of_inRange present hin, entryIn_of_recovered _ he hn]
  case restarts => rw [entryAfter_of_outOfRange present hout, entryOut_of_faulted he]

/-! ### The value of a raw reading (R117, R118) -/

theorem rawInRange_iff {c : Channel} {raw : Nat} : rawInRange c raw = true ↔ lowLimit c ≤ raw ∧ raw ≤ 4013 :=
  decide_eq_true_iff

/-- The integer division of R117 is one of natural numbers: no raw reading and no span is negative. -/
theorem scaledValue_eq {c : Channel} {offset : Int} {span : Nat} (hs : scaleOf c = (offset, (span : Int))) (raw : Nat) :
    scaledValue c raw = offset + (raw * span / 4096 : Nat) := by
  simp [scaledValue, hs]

/-- The floor grows with the reading, so the values in range lie between those of the two limits (R117). -/
theorem scaledValue_mem_of_inRange {c : Channel} {offset : Int} {span raw : Nat}
    (hs : scaleOf c = (offset, (span : Int))) (hr : rawInRange c raw = true) :
    offset + (lowLimit c * span / 4096 : Nat) ≤ scaledValue c raw ∧
      scaledValue c raw ≤ offset + (4013 * span / 4096 : Nat) := by
  obtain ⟨low, high⟩ := rawInRange_iff.1 hr
  have above : lowLimit c * span / 4096 ≤ raw * span / 4096 := Nat.div_le_div_right (Nat.mul_le_mul_right span low)
  have below : raw * span / 4096 ≤ 4013 * span / 4096 := Nat.div_le_div_right (Nat.mul_le_mul_right span high)
  rw [scaledValue_eq hs]
  omega

/-- A row of R117's table: the type's low limit, offset and span give its readings in range and their least and greatest values. -/
theorem scaledValue_row {c : Channel} {low span : Nat} {offset least greatest : Int} (hl : lowLimit c = low)
    (hs : scaleOf c = (offset, (span : Int))) (hleast : offset + (low * span / 4096 : Nat) = least)
    (hgreatest : offset + (4013 * span / 4096 : Nat) = greatest) (raw : Nat) :
    (rawInRange c raw = true ↔ low ≤ raw ∧ raw ≤ 4013) ∧ scaledValue c raw = offset + (raw * span / 4096 : Nat) ∧
      (rawInRange c raw = true → least ≤ scaledValue c raw ∧ scaledValue c raw ≤ greatest) := by
  subst hl hleast hgreatest
  exact ⟨rawInRange_iff, scaledValue_eq hs raw, scaledValue_mem_of_inRange hs⟩

theorem limit_scale_of_isJack {c : Channel} (hc : isJack c = true) :
    lowLimit c = 16 ∧ scaleOf c = (0, ((600 : Nat) : Int)) := by
  cases c with
  | j1 | j2 | j3 | j4 => exact ⟨rfl, rfl⟩
  | pres | fill | t1 | t2 | t3 | t4 | beam => exact absurd hc Bool.false_ne_true

theorem limit_scale_of_probe {c : Channel} (hc : c = .t1 ∨ c = .t2 ∨ c = .t3 ∨ c = .t4) :
    lowLimit c = 82 ∧ scaleOf c = (-400, ((1200 : Nat) : Int)) := by
  rcases hc with rfl | rfl | rfl | rfl <;> exact ⟨rfl, rfl⟩

/-- Settles O58: a row of R117's table for each of the five channel types, and R118 for the readings out of range. -/
theorem scaledValues : Obligations.ScaledValues := by
  intro raw _
  refine ⟨fun c hc => ?jack, ?pres, ?fill, fun c hc => ?probe, ?beam, fun c e hr => ?outOfRange⟩
  case jack =>
    obtain ⟨low, scale⟩ := limit_scale_of_isJack hc
    simpa only [zero_add] using scaledValue_row (least := 2) (greatest := 587) low scale rfl rfl raw
  case pres =>
    simpa only [zero_add] using
      scaledValue_row (c := .pres) (span := 4000) (low := 16) (least := 15) (greatest := 3918) rfl rfl rfl rfl raw
  case fill =>
    simpa only [zero_add] using
      scaledValue_row (c := .fill) (span := 15000) (low := 82) (least := 300) (greatest := 14696) rfl rfl rfl rfl raw
  case probe =>
    obtain ⟨low, scale⟩ := limit_scale_of_probe hc
    exact scaledValue_row low scale rfl rfl raw
  case beam => exact scaledValue_row (c := .beam) (span := 1000) rfl rfl rfl rfl raw
  case outOfRange => exact entryAfter_value_of_outOfRange e hr

end Sys2Proof.Machine
end

section
/-! What a command can do to the node, said once for the invariants: each block's own operations keep what the manual promises of the
block (`LifKeeps`, `SsqKeeps`, `LcoKeeps`, `PvwKeeps`, `MctKeeps`, `SrsKeeps`), and every shared operation is a chain of such moves. -/

namespace Sys2Proof.Machine

/-! ### What a block's operations keep -/

/-- What LIF's operations other than ACCESS keep: the FIFO's capacity, the garble bounds, the order of the ages and the silence; and
none of them begins a post. -/
structure LifKeeps (l l' : Lif) : Prop where
  fifo : l.fifo.length ≤ 2 → l'.fifo.length ≤ 2
  garble : GarbleBounds l → GarbleBounds l'
  ages : AgesOrdered l → AgesOrdered l'
  silent : l.silent = true → l'.silent = true
  free : l.transmitter = none → l'.transmitter = none

/-- What SSQ's operations keep: the history's capacity, the valves in their phases, own height in its range. -/
structure SsqKeeps (q q' : Ssq) : Prop where
  history : q.history.length ≤ 8 → q'.history.length ≤ 8
  valves : ValvesInPhase q → ValvesInPhase q'
  height : 0 ≤ q.height ∧ q.height ≤ 1000000 → 0 ≤ q'.height ∧ q'.height ≤ 1000000

/-- LCO's part of `ColumnKept`: the column in order and the id counter in its range. -/
structure LcoInOrder (l : Lco) : Prop where
  order : ColumnInOrder l.column
  counter : l.nextId < 65536

/-- What LCO's operations keep at own height `own`: the column's capacity, and its order. -/
structure LcoKeeps (own : Int) (l l' : Lco) : Prop where
  size : l.column.length ≤ 12 → l'.column.length ≤ 12
  order : 0 ≤ own ∧ own ≤ 1000000 → LcoInOrder l → LcoInOrder l'

/-- The table's part of `PeersInOrder`, for an own station and a number of sectors. -/
structure TableInOrder (own ring : Nat) (t : List Peer) : Prop where
  order : t.Pairwise fun a b => a.sector < b.sector ∨ (a.sector = b.sector ∧ a.station < b.station)
  distinct : (t.map Peer.station).Nodup
  stations : ∀ p ∈ t, 1 ≤ p.station ∧ p.station ≤ 62 ∧ p.station ≠ own
  sectors : ∀ p ∈ t, p.sector < ring
  heights : ∀ p ∈ t, 0 ≤ p.height ∧ p.height ≤ 1000000

/-- What PVW's operations keep: the table's capacity, and, the command taken being well formed (`wf`), its order. -/
structure PvwKeeps (wf : Prop) (own ring : Nat) (p p' : Pvw) : Prop where
  capacity : p.peers.length ≤ 47 → p'.peers.length ≤ 47
  order : wf → TableInOrder own ring p.peers → TableInOrder own ring p'.peers

/-- What MCT's operations keep: the window's capacity, and IDENTITY_CLASH in the SAFE set. -/
structure MctKeeps (m m' : Mct) : Prop where
  window : m.window.length ≤ 10 → m'.window.length ≤ 10
  clash : m.safe.identityClash = true → m'.safe.identityClash = true

/-- What SRS's operations on a running node keep: the active settings (but for the full stroke, where a calibration may complete,
`cal`), the retention area, the node's life, and
the order of the writes. -/
structure SrsKeeps (cal : Prop) (r r' : Srs) : Prop where
  active : r'.active = { r.active with fullStroke := r'.active.fullStroke }
  fixed : ¬ cal → r'.active = r.active
  area : r'.area = r.area
  life : r'.life = r.life
  writes : WritesInOrder r → WritesInOrder r'

/-- One move of one block, or the save. The planner keeps its trim in range; nothing is promised of FCT, MSQ, ORS, LDR and the
inputs. -/
inductive Move (wf cal : Prop) (s : State) : State → Prop
  | lif {l : Lif} (h : LifKeeps s.lif l) : Move wf cal s (s.setLif l)
  | ssq {q : Ssq} (h : SsqKeeps s.ssq q) : Move wf cal s (s.setSsq q)
  | lco {l : Lco} (h : LcoKeeps s.ssq.height s.lco l) : Move wf cal s (s.setLco l)
  | pvw {p : Pvw} (h : PvwKeeps wf (ownStation s) (ringOf s.srs.active) s.pvw p) : Move wf cal s (s.setPvw p)
  | mct {m : Mct} (h : MctKeeps s.mct m) : Move wf cal s (s.setMct m)
  | cpl {x : Cpl} (h : -32 ≤ s.cpl.trim ∧ s.cpl.trim ≤ 31 → -32 ≤ x.trim ∧ x.trim ≤ 31) : Move wf cal s (s.setCpl x)
  | srs {r : Srs} (h : SrsKeeps cal s.srs r) : Move wf cal s (s.setSrs r)
  | save (b : Bool) : Move wf cal s (saveArea b s)
  | fct (x : Fct) : Move wf cal s (s.setFct x)
  | msq (x : Msq) : Move wf cal s (s.setMsq x)
  | ors (x : Ors) : Move wf cal s (s.setOrs x)
  | ldr (x : Ldr) : Move wf cal s (s.setLdr x)
  | pins (x : Pins) : Move wf cal s (s.setPins x)
  | nowMs (x : Nat) : Move wf cal s (s.setNowMs x)
  | freeCount (x : Nat) : Move wf cal s (s.setFreeCount x)

/-- A chain of moves. -/
def Moved (wf cal : Prop) : State → State → Prop := Relation.ReflTransGen (Move wf cal)

variable {wf cal : Prop}

theorem Moved.refl (s : State) : Moved wf cal s s := Relation.ReflTransGen.refl

theorem Move.moved {s t : State} (h : Move wf cal s t) : Moved wf cal s t := Relation.ReflTransGen.single h

theorem Moved.trans {s t u : State} (h : Moved wf cal s t) (k : Moved wf cal t u) : Moved wf cal s u := Relation.ReflTransGen.trans h k

/-- A chain told from its last operation backwards. -/
theorem Moved.after {s t u : State} (k : Moved wf cal t u) (h : Moved wf cal s t) : Moved wf cal s u := h.trans k

/-- A branch of an operation is a chain where both its arms are. -/
theorem Moved.branch {c : Prop} [Decidable c] {s a b : State} (ha : c → Moved wf cal s a) (hb : ¬ c → Moved wf cal s b) :
    Moved wf cal s (if c then a else b) := by
  split
  · next h => exact ha h
  · next h => exact hb h

/-- The moves leave the node's life and the queue. -/
theorem Moved.kept {s t : State} (h : Moved wf cal s t) : t.srs.life = s.srs.life ∧ t.pending = s.pending := by
  induction h with
  | refl => exact ⟨rfl, rfl⟩
  | tail _ h ih =>
    cases h with
    | srs h => exact ⟨h.life.trans ih.1, ih.2⟩
    | save b => exact ⟨(by rw [saveArea]; simpa using ih.1), by simpa using ih.2⟩
    | _ => exact ih

theorem Moved.up {s t : State} (h : Moved wf cal s t) (up : s.srs.life = .up) : t.srs.life = .up := h.kept.1.trans up

/-! ### LIF -/

/-- An operation that leaves the slots, the transmitter, the bucket and the marks keeps all that depends on them. -/
theorem LifKeeps.of_queue {l l' : Lif} (fifo : l.fifo.length ≤ 2 → l'.fifo.length ≤ 2)
    (h : l' = { l with
      access := l'.access, rx := l'.rx, fifo := l'.fifo, lastSender := l'.lastSender, quietUs := l'.quietUs
      byteLeftUs := l'.byteLeftUs, rejoinMs := l'.rejoinMs, rejoinCount := l'.rejoinCount, levelMs := l'.levelMs
      framingErrors := l'.framingErrors, checkErrors := l'.checkErrors, overruns := l'.overruns, garbles := l'.garbles }) :
    LifKeeps l l' := by
  refine ⟨fifo, ?_, ?_, ?_, ?_⟩ <;> rw [h]
  · exact fun k => ⟨k.bucket, k.free, k.quiet⟩
  · exact fun k => ⟨k.halt, k.claim, k.gate, k.level, k.reply, k.transmitter⟩
  · exact id
  · exact id

theorem LifKeeps.refl (l : Lif) : LifKeeps l l := ⟨id, id, id, id, id⟩

theorem LifKeeps.trans {a b c : Lif} (h : LifKeeps a b) (k : LifKeeps b c) : LifKeeps a c :=
  ⟨k.fifo ∘ h.fifo, k.garble ∘ h.garble, k.ages ∘ h.ages, k.silent ∘ h.silent, k.free ∘ h.free⟩

/-- A post queued into a slot is older than the next (R166). -/
theorem fillSlot_stamp {α : Type} {slot : Option (Slot α)} {n : Nat} (p : α) (h : ∀ x, slot = some x → x.stamp < n) :
    ∀ x, fillSlot slot p n = some x → x.stamp < n + 1 := by
  intro x hx
  cases slot with
  | none => cases hx; exact Nat.lt_succ_self n
  | some y => cases hx; exact Nat.lt_succ_of_lt (h y rfl)

theorem stamps_grow {α : Type} {slot : Option α} {stamp : α → Nat} {n : Nat} (h : ∀ x, slot = some x → stamp x < n) :
    ∀ x, slot = some x → stamp x < n + 1 := fun x hx => Nat.lt_succ_of_lt (h x hx)

theorem queueHaltPost_keeps (p : HaltPost) (l : Lif) : LifKeeps l (queueHaltPost p l) :=
  ⟨id, fun k => ⟨k.bucket, k.free, k.quiet⟩, fun k => ⟨fillSlot_stamp p k.halt, stamps_grow k.claim, stamps_grow k.gate,
    stamps_grow k.level, stamps_grow k.reply, stamps_grow k.transmitter⟩, id, id⟩

theorem queueClaimPost_keeps (p : ClaimPost) (l : Lif) : LifKeeps l (queueClaimPost p l) :=
  ⟨id, fun k => ⟨k.bucket, k.free, k.quiet⟩, fun k => ⟨stamps_grow k.halt, fillSlot_stamp p k.claim, stamps_grow k.gate,
    stamps_grow k.level, stamps_grow k.reply, stamps_grow k.transmitter⟩, id, id⟩

theorem queueGatePost_keeps (p : GatePost) (l : Lif) : LifKeeps l (queueGatePost p l) :=
  ⟨id, fun k => ⟨k.bucket, k.free, k.quiet⟩, fun k => ⟨stamps_grow k.halt, stamps_grow k.claim, fillSlot_stamp p k.gate,
    stamps_grow k.level, stamps_grow k.reply, stamps_grow k.transmitter⟩, id, id⟩

theorem wantLevelPost_keeps (own : Nat) (l : Lif) : LifKeeps l (wantLevelPost own l) := by
  unfold wantLevelPost
  split
  · exact .refl l
  · exact ⟨id, fun k => ⟨k.bucket, k.free, k.quiet⟩, fun k => ⟨stamps_grow k.halt, stamps_grow k.claim, stamps_grow k.gate,
      fillSlot_stamp () k.level, stamps_grow k.reply, stamps_grow k.transmitter⟩, id, id⟩

theorem queueReplyPost_keeps (p : List Byte) (l : Lif) : LifKeeps l (queueReplyPost p l) := by
  unfold queueReplyPost
  split
  · exact .refl l
  · exact ⟨id, fun k => ⟨k.bucket, k.free, k.quiet⟩, fun k => ⟨stamps_grow k.halt, stamps_grow k.claim, stamps_grow k.gate,
      stamps_grow k.level, fillSlot_stamp p k.reply, stamps_grow k.transmitter⟩, id, id⟩

theorem withdrawClaimPost_keeps (l : Lif) : LifKeeps l (withdrawClaimPost l) := by
  unfold withdrawClaimPost
  split
  · exact ⟨id, fun k => ⟨k.bucket, k.free, k.quiet⟩, fun k => ⟨k.halt, nofun, k.gate, k.level, k.reply, k.transmitter⟩, id, id⟩
  · split
    · next t ht =>
      split
      · refine ⟨id, fun k => ⟨k.bucket, k.free, fun hm => ?_⟩, fun k => ⟨k.halt, k.claim, k.gate, k.level, k.reply, ?_⟩, id,
          fun hn => ?_⟩
        · exact absurd (ht.symm.trans (k.quiet hm)) nofun
        · rintro x hx; cases hx; exact k.transmitter t ht
        · exact absurd (ht.symm.trans hn) nofun
      · exact .refl l
    · exact .refl l

/-- The silence begun (R173). -/
theorem silenced_keeps (l : Lif) : LifKeeps l { l with silent := true } :=
  ⟨id, fun k => ⟨k.bucket, k.free, k.quiet⟩, fun k => ⟨k.halt, k.claim, k.gate, k.level, k.reply, k.transmitter⟩, fun _ => rfl,
    id⟩

/-- Leaving MUTE, the bucket stands at 40 (R172). -/
theorem leaveMute_keeps (l : Lif) : LifKeeps l (leaveMute l) where
  fifo := id
  garble _ := { bucket := by simp [leaveMute], free := by simp [leaveMute], quiet := by simp [leaveMute] }
  ages k := ⟨k.halt, k.claim, k.gate, k.level, k.reply, k.transmitter⟩
  silent := id
  free := id

/-- A clean own post lowers the bucket and frees the transmitter (R170). -/
theorem sentLine_keeps (own : Nat) (l : Lif) : LifKeeps l (sentLine own l) where
  fifo := id
  garble k :=
    { bucket := (Nat.sub_le l.bucket 1).trans k.bucket
      free := fun hm => Nat.lt_of_le_of_lt (Nat.sub_le l.bucket 1) (k.free hm)
      quiet := fun _ => rfl }
  ages k := ⟨k.halt, k.claim, k.gate, k.level, k.reply, by simp [sentLine]⟩
  silent := id
  free _ := rfl

theorem trafficEnded_keeps (l : Lif) : LifKeeps l (trafficEnded l) := .of_queue id rfl

theorem startBitLine_keeps (bitUs quiet : Nat) (l : Lif) : LifKeeps l (startBitLine bitUs quiet l) := .of_queue id rfl

theorem errorPassed_keeps (bitUs : Nat) (l : Lif) : LifKeeps l (errorPassed bitUs l) := by
  rcases errorPassed_cases bitUs l with h | ⟨-, -, h⟩ <;> rw [h]
  · exact .refl l
  · exact .of_queue id rfl

theorem rejoinRestart_keeps (l : Lif) : LifKeeps l (rejoinRestart l) := by
  unfold rejoinRestart
  split
  · exact .of_queue id rfl
  · exact .refl l

theorem countFraming_keeps (l : Lif) : LifKeeps l (countFraming l) :=
  LifKeeps.trans (b := { l with framingErrors := satAdd 65535 l.framingErrors 1, rx := .errored }) (.of_queue id rfl)
    (rejoinRestart_keeps _)

theorem countCheck_keeps (l : Lif) : LifKeeps l (countCheck l) :=
  LifKeeps.trans (b := { l with checkErrors := satAdd 65535 l.checkErrors 1, rx := .ready }) (.of_queue id rfl)
    (rejoinRestart_keeps _)

theorem framingErrorLine_keeps (bitUs quiet : Nat) (l : Lif) : LifKeeps l (framingErrorLine bitUs quiet l) := by
  have counted : LifKeeps l (if hears l then countFraming l else l) := by
    split
    · exact countFraming_keeps l
    · exact .refl l
  refine LifKeeps.trans ?_ (errorPassed_keeps bitUs _)
  exact counted.trans (.of_queue id rfl)

/-- The receive FIFO takes a post only while it holds fewer than two (R164). -/
theorem offerPost_keeps (p : RxPost) (l : Lif) : LifKeeps l (offerPost p l) := by
  unfold offerPost
  split
  · exact .of_queue (fun _ => by simp; omega) rfl
  · exact .of_queue id rfl

theorem cleanPostLine_keeps (own : Nat) (p : RxPost) (l : Lif) : LifKeeps l (cleanPostLine own p l) := by
  simp only [cleanPostLine]
  split
  · refine LifKeeps.trans ?_ (offerPost_keeps p _)
    exact .of_queue id rfl
  · exact .of_queue id rfl

theorem receiveLine_keeps (own : Nat) (v : Verdict) (l : Lif) : LifKeeps l (receiveLine own v l) := by
  have judged : LifKeeps l (if hears l then judgedLine own v l else l) := by
    split
    · cases v with
      | framing => exact countFraming_keeps l
      | check => exact countCheck_keeps l
      | clean p => exact cleanPostLine_keeps own p l
    · exact .refl l
  exact judged.trans (trafficEnded_keeps _)

/-- A post taken leaves the rest of the FIFO (R164). -/
theorem takenFrom_keeps {p : RxPost} {l l' : Lif} (h : takenFrom p l = some l') : LifKeeps l l' := by
  unfold takenFrom at h
  split at h
  · cases h; exact .refl l
  · next hd rest hf =>
    split at h
    · cases h
      refine .of_queue (fun hl => ?_) rfl
      rw [hf] at hl
      exact (Nat.le_succ _).trans hl
    · cases h

/-- A returned post keeps its age (R169). -/
theorem returnSlot_stamp {α : Type} {slot : Option (Slot α)} {p : α} {stamp n : Nat} (h : ∀ x, slot = some x → x.stamp < n)
    (hs : stamp < n) : ∀ x, returnSlot slot p stamp = some x → x.stamp < n := by
  intro x hx
  cases slot with
  | none => cases hx; exact hs
  | some y => exact h x hx

/-- What a garbled post's return leaves beside its slot. -/
theorem returnPost_frame (t : Transmission) (l : Lif) :
    (returnPost t l).fifo = l.fifo ∧ (returnPost t l).bucket = l.bucket ∧ (returnPost t l).muted = l.muted ∧
      (returnPost t l).silent = l.silent ∧ (returnPost t l).transmitter = l.transmitter ∧
      (returnPost t l).nextStamp = l.nextStamp := by
  unfold returnPost
  split
  · simp
  · split <;> simp

theorem returnPost_ages {t : Transmission} {l : Lif} (h : AgesOrdered l) (ht : t.stamp < l.nextStamp) :
    AgesOrdered (returnPost t l) := by
  unfold returnPost
  split
  · exact h
  · split
    · exact ⟨returnSlot_stamp h.halt ht, h.claim, h.gate, h.level, h.reply, h.transmitter⟩
    · exact ⟨h.halt, returnSlot_stamp h.claim ht, h.gate, h.level, h.reply, h.transmitter⟩
    · exact ⟨h.halt, h.claim, returnSlot_stamp h.gate ht, h.level, h.reply, h.transmitter⟩
    · exact ⟨h.halt, h.claim, h.gate, returnSlot_stamp h.level ht, h.reply, h.transmitter⟩
    · exact ⟨h.halt, h.claim, h.gate, h.level, returnSlot_stamp h.reply ht, h.transmitter⟩
    · exact h

theorem garbleLine_frame (own : Nat) (t : Transmission) (l : Lif) :
    (garbleLine own t l).fifo = l.fifo ∧ (garbleLine own t l).bucket = l.bucket + 8 ∧
      (garbleLine own t l).muted = l.muted ∧ (garbleLine own t l).silent = l.silent ∧
      (garbleLine own t l).transmitter = none := by
  simp [garbleLine, returnPost_frame]

theorem garbleLine_ages {own : Nat} {t : Transmission} {l : Lif} (h : AgesOrdered l) (ht : l.transmitter = some t) :
    AgesOrdered (garbleLine own t l) := by
  refine returnPost_ages ⟨h.halt, h.claim, h.gate, h.level, h.reply, fun x hx => ?_⟩ (h.transmitter t ht)
  simp at hx

/-- A garble of the post in the transmitter, with MUTE entered at 96 (R169, R171). -/
theorem garble_keeps {own : Nat} {t : Transmission} {l : Lif} (ht : l.transmitter = some t) :
    LifKeeps l (if 96 ≤ (garbleLine own t l).bucket then enterMute (garbleLine own t l) else garbleLine own t l) := by
  obtain ⟨fifo, bucket, muted, silent, free⟩ := garbleLine_frame own t l
  have unmuted : GarbleBounds l → l.bucket < 96 := fun k => k.free (by
    cases hm : l.muted
    · rfl
    · exact absurd (ht.symm.trans (k.quiet hm)) nofun)
  split
  · next h96 =>
    refine ⟨fun hl => fifo ▸ hl, fun k => ⟨?_, nofun, fun _ => free⟩, fun k => ?_, fun hs => silent.trans hs, fun _ => free⟩
    · show (garbleLine own t l).bucket ≤ 103
      have := unmuted k
      omega
    · have a := garbleLine_ages (own := own) k ht
      exact ⟨a.halt, nofun, a.gate, a.level, nofun, a.transmitter⟩
  · next h96 =>
    refine ⟨fun hl => fifo ▸ hl, fun k => ⟨by omega, fun _ => by omega, fun _ => free⟩,
      fun k => garbleLine_ages k ht, fun hs => silent.trans hs, fun _ => free⟩

end Sys2Proof.Machine
end

section
/-! What the operations of SSQ, LCO, MCT, SRS and PVW keep of their own block's state. -/

namespace Sys2Proof.Machine

/-! ### SSQ -/

/-- An operation that leaves the phase, the two valves, the history and own height keeps what depends on them. -/
theorem SsqKeeps.of_same {q q' : Ssq} (phase : q'.phase = q.phase) (lift : q'.liftEnable = q.liftEnable)
    (release : q'.releaseOn = q.releaseOn) (history : q'.history = q.history) (height : q'.height = q.height) :
    SsqKeeps q q' := by
  refine ⟨fun h => by rw [history]; exact h, fun h => ⟨?_, ?_⟩, fun h => by rw [height]; exact h⟩
  · rw [lift, phase]; exact h.lift
  · rw [release, phase]; exact h.release

theorem SsqKeeps.trans {a b c : Ssq} (h : SsqKeeps a b) (k : SsqKeeps b c) : SsqKeeps a c :=
  ⟨k.history ∘ h.history, k.valves ∘ h.valves, k.height ∘ h.height⟩

/-- A change of phase keeps what SSQ promises where the valves are in the new phase. -/
theorem SsqKeeps.of_phase {q q' : Ssq} (history : q'.history = q.history) (height : q'.height = q.height)
    (valves : ValvesInPhase q → ValvesInPhase q') : SsqKeeps q q' :=
  ⟨fun h => by rw [history]; exact h, valves, fun h => by rw [height]; exact h⟩

/-- Outside RELEASE the release valve is off (R67). -/
theorem ValvesInPhase.release_off {q : Ssq} (h : ValvesInPhase q) (hp : q.phase ≠ .release) : q.releaseOn = false :=
  Bool.eq_false_iff.2 fun hr => hp (h.release hr)

/-- Outside PRESSURIZE and LIFT the lift enable is withdrawn (R66). -/
theorem ValvesInPhase.lift_off {q : Ssq} (h : ValvesInPhase q) (h1 : q.phase ≠ .pressurize) (h2 : q.phase ≠ .lift) :
    q.liftEnable = false :=
  Bool.eq_false_iff.2 fun hl => (h.lift hl).elim h1 h2

theorem leavePressurize_keeps (f : Stroke → Stroke) {q : Ssq} (hp : q.phase ≠ .release) :
    SsqKeeps q (leavePressurize f q) :=
  .of_phase rfl rfl fun h => ⟨nofun, fun hr => absurd (h.release hr) hp⟩

theorem leaveLift_keeps (n : Nat) (f : Stroke → Stroke) {q : Ssq} (hp : q.phase ≠ .release) :
    SsqKeeps q (leaveLift n f q) :=
  .of_phase rfl rfl fun h => ⟨nofun, fun hr => absurd (h.release hr) hp⟩

/-- The phase RELEASE turns its valve on after TOPDWELL, in which the lift valve is off. -/
theorem enterRelease_keeps (now : Nat) {q : Ssq} (hp : q.phase = .topdwell) : SsqKeeps q (enterRelease now q) :=
  .of_phase rfl rfl fun h => ⟨fun hl => by
    have := h.lift_off (by simp [hp]) (by simp [hp])
    exact absurd hl (by simp [enterRelease, this]), fun _ => rfl⟩

theorem rampSsq_keeps (q : Ssq) : SsqKeeps q (rampSsq q) := .of_same rfl rfl rfl rfl rfl

theorem coilChecked_keeps (coil : Coil) (isOpen : Bool) (q : Ssq) : SsqKeeps q (coilChecked coil isOpen q) := by
  cases coil <;> exact .of_same rfl rfl rfl rfl rfl

theorem joinHistory_length {r : HistoryRec} {h : List HistoryRec} : (joinHistory r h).length ≤ 8 := by
  simp [joinHistory]

theorem clamp_range (h : Int) : 0 ≤ clamp 0 maxHeight h ∧ clamp 0 maxHeight h ≤ 1000000 := by
  simp only [clamp, maxHeight]; omega

theorem limitTrim_range (t : Int) : -32 ≤ limitTrim t ∧ limitTrim t ≤ 31 := by
  simp only [limitTrim, clamp]; omega

/-! ### LCO: the ids -/

/-- An id taken by every candidate of the search is in the list with all of them (R3). -/
theorem freeIdFrom_taken {ids : List Nat} {fuel id : Nat} (hid : id < 65536) (h : freeIdFrom ids fuel id ∈ ids) :
    ∀ k ≤ fuel, (id + k) % 65536 ∈ ids := by
  induction fuel generalizing id with
  | zero =>
    intro k hk
    obtain rfl : k = 0 := by omega
    rw [Nat.add_zero, Nat.mod_eq_of_lt hid]
    exact h
  | succ n ih =>
    unfold freeIdFrom at h
    split at h
    · next hin =>
      intro k hk
      cases k with
      | zero => rw [Nat.add_zero, Nat.mod_eq_of_lt hid]; exact hin
      | succ j =>
        have := ih (Nat.mod_lt _ (by omega)) h j (by omega)
        rwa [show (id + (j + 1)) % 65536 = ((id + 1) % 65536 + j) % 65536 by omega]
    · next hout => exact absurd h hout

/-- The search of R3 finds an id that no record carries: fewer ids are taken than candidates are tried. -/
theorem freeIdFrom_not_mem {ids : List Nat} {fuel id : Nat} (hid : id < 65536) (hl : ids.length ≤ fuel) (hf : fuel < 65536) :
    freeIdFrom ids fuel id ∉ ids := by
  intro h
  have taken := freeIdFrom_taken hid h
  have nodup : ((List.range (fuel + 1)).map fun k => (id + k) % 65536).Nodup := by
    refine (List.nodup_map_iff_inj_on List.nodup_range).2 fun a ha b hb hab => ?_
    rw [List.mem_range] at ha hb
    omega
  have sub : ((List.range (fuel + 1)).map fun k => (id + k) % 65536) ⊆ ids := by
    intro x hx
    obtain ⟨k, hk, rfl⟩ := List.mem_map.1 hx
    exact taken k (by rw [List.mem_range] at hk; omega)
  have := (nodup.subperm sub).length_le
  simp at this
  omega

theorem freeIdFrom_lt {ids : List Nat} {fuel id : Nat} (hid : id < 65536) : freeIdFrom ids fuel id < 65536 := by
  induction fuel generalizing id with
  | zero => exact hid
  | succ n ih =>
    unfold freeIdFrom
    split
    · exact ih (Nat.mod_lt _ (by omega))
    · exact hid

theorem allocatedId_fresh {l : Lco} (h : LcoInOrder l) : allocatedId l ∉ l.column.map Layer.id :=
  freeIdFrom_not_mem h.counter (by simp) (by have := h.order.size; omega)

theorem allocatedId_lt {l : Lco} (h : LcoInOrder l) : allocatedId l < 65536 := freeIdFrom_lt h.counter

/-! ### LCO: the column's order by its ends -/

/-- The records of a column as R1 and R2 describe each by itself. -/
structure LayerInRange (r : Layer) : Prop where
  heights : 0 ≤ r.bottom ∧ r.bottom ≤ r.top ∧ r.top ≤ 1000000
  maturity : r.maturity ≤ 9999999
  id : r.id < 65536

/-- A column in order but for its youngest record is one whose records are in range, each bottom the top of the one before it, none of
the older ones POURING. -/
theorem columnInOrder_iff {col : List Layer} :
    ColumnInOrder col ↔
      col.length ≤ 12 ∧ col.IsChain (fun a b => b.bottom = a.top ∧ a.state ≠ .pouring) ∧ (∀ r ∈ col, LayerInRange r) ∧
        (col.map Layer.id).Nodup := by
  rw [List.isChain_iff_getElem]
  constructor
  · intro h
    refine ⟨h.size, fun i hi => ⟨?_, fun hp => ?_⟩, fun r hr => ⟨h.heights r hr, h.maturities r hr, h.ids r hr⟩, h.distinct⟩
    · exact h.contiguous i _ _ (List.getElem?_eq_getElem (by omega)) (List.getElem?_eq_getElem hi)
    · have := h.pouring i _ (List.getElem?_eq_getElem (by omega)) hp
      omega
  · rintro ⟨size, chain, range, distinct⟩
    refine ⟨size, fun i a b ha hb => ?_, fun r hr => (range r hr).heights, fun r hr => (range r hr).maturity,
      fun i r hi hp => ?_, distinct, fun r hr => (range r hr).id⟩
    · obtain ⟨h1, rfl⟩ := List.getElem?_eq_some_iff.1 ha
      obtain ⟨h2, rfl⟩ := List.getElem?_eq_some_iff.1 hb
      exact (chain i h2).1
    · obtain ⟨h1, rfl⟩ := List.getElem?_eq_some_iff.1 hi
      by_contra hne
      exact (chain i (by omega)).2 hp

/-- The empty column is in order. -/
theorem columnInOrder_nil : ColumnInOrder [] := columnInOrder_iff.2 (by simp)

/-- What is left of a column after records have gone from its old end is in order. -/
theorem ColumnInOrder.of_suffix {a b : List Layer} (h : ColumnInOrder (a ++ b)) : ColumnInOrder b := by
  obtain ⟨size, chain, range, distinct⟩ := columnInOrder_iff.1 h
  rw [List.isChain_append] at chain
  rw [List.map_append, List.nodup_append] at distinct
  refine columnInOrder_iff.2 ⟨?_, chain.2.1, fun r hr => range r (List.mem_append_right a hr), distinct.2.1⟩
  rw [List.length_append] at size
  omega

/-- The older records of a column are in order, and none of them is POURING. -/
theorem ColumnInOrder.older {a : List Layer} {r : Layer} (h : ColumnInOrder (a ++ [r])) :
    ColumnInOrder a ∧ ∀ x ∈ a, x.state ≠ .pouring := by
  obtain ⟨size, chain, range, distinct⟩ := columnInOrder_iff.1 h
  refine ⟨columnInOrder_iff.2 ⟨?_, (List.isChain_append.1 chain).1, fun x hx => range x (List.mem_append_left _ hx), ?_⟩, ?_⟩
  · rw [List.length_append] at size
    omega
  · rw [List.map_append, List.nodup_append] at distinct
    exact distinct.1
  · intro x hx hp
    obtain ⟨i, hi, rfl⟩ := List.getElem_of_mem hx
    have := h.pouring i _ (by rw [List.getElem?_append_left hi, List.getElem?_eq_getElem hi]) hp
    simp at this
    omega

/-- A record joined at the young end of a column without a POURING one keeps it in order. -/
theorem ColumnInOrder.snoc {a : List Layer} {r : Layer} (h : ColumnInOrder a) (calm : ∀ x ∈ a, x.state ≠ .pouring)
    (size : a.length < 12) (range : LayerInRange r) (bottom : ∀ y, a.getLast? = some y → r.bottom = y.top)
    (fresh : r.id ∉ a.map Layer.id) : ColumnInOrder (a ++ [r]) := by
  obtain ⟨-, chain, ranges, distinct⟩ := columnInOrder_iff.1 h
  refine columnInOrder_iff.2 ⟨by simp; omega, ?_, ?_, ?_⟩
  · refine List.isChain_append.2 ⟨chain, by simp, fun y hy z hz => ?_⟩
    cases hz
    exact ⟨bottom y hy, calm y (List.mem_of_getLast? hy)⟩
  · intro x hx
    rcases List.mem_append.1 hx with hx | hx
    · exact ranges x hx
    · obtain rfl : x = r := by simpa using hx
      exact range
  · rw [List.map_append, List.nodup_append]
    refine ⟨distinct, by simp, fun x hx y hy hxy => ?_⟩
    obtain rfl : y = r.id := by simpa using hy
    exact fresh (hxy ▸ hx)

/-- The youngest record of a column, put in another's place with its bottom and id, keeps the column in order. -/
theorem ColumnInOrder.replace {a : List Layer} {r r' : Layer} (h : ColumnInOrder (a ++ [r])) (range : LayerInRange r')
    (bottom : r'.bottom = r.bottom) (same : r'.id = r.id) : ColumnInOrder (a ++ [r']) := by
  obtain ⟨ha, calm⟩ := h.older
  obtain ⟨size, chain, -, distinct⟩ := columnInOrder_iff.1 h
  refine ha.snoc calm (by simp at size; omega) range (fun y hy => ?_) ?_
  · rw [bottom]
    exact ((List.isChain_append.1 chain).2.2 y hy r rfl).1
  · rw [List.map_append, List.nodup_append] at distinct
    intro hm
    exact distinct.2.2 _ hm r.id (by simp) same

/-- A record's update that leaves its place, its id and whether it is POURING. -/
structure LayerKept (f : Layer → Layer) : Prop where
  place : ∀ r, (f r).id = r.id ∧ ((f r).state = .pouring → r.state = .pouring)
  heights : ∀ r, (f r).bottom = r.bottom ∧ (f r).top = r.top
  maturity : ∀ r, r.maturity ≤ 9999999 → (f r).maturity ≤ 9999999

/-- A map over the records that moves bottoms and tops alike keeps the column in order. -/
theorem ColumnInOrder.map {col : List Layer} (h : ColumnInOrder col) {f : Layer → Layer} (g : Int → Int)
    (range : ∀ r ∈ col, LayerInRange (f r)) (heights : ∀ r ∈ col, (f r).bottom = g r.bottom ∧ (f r).top = g r.top)
    (id : ∀ r, (f r).id = r.id) (state : ∀ r, (f r).state = .pouring → r.state = .pouring) : ColumnInOrder (col.map f) := by
  obtain ⟨size, chain, -, distinct⟩ := columnInOrder_iff.1 h
  refine columnInOrder_iff.2 ⟨by simpa using size, ?_, fun x hx => ?_, ?_⟩
  · rw [List.isChain_map]
    refine (List.IsChain.imp_of_mem_imp (fun a b ha hb hab => ?_) chain)
    refine ⟨?_, fun hp => hab.2 (state a hp)⟩
    rw [(heights b hb).1, (heights a ha).2, hab.1]
  · obtain ⟨r, hr, rfl⟩ := List.mem_map.1 hx
    exact range r hr
  · rw [List.map_map]
    have : (Layer.id ∘ f) = Layer.id := funext id
    rw [this]
    exact distinct

theorem ColumnInOrder.range {col : List Layer} (h : ColumnInOrder col) {r : Layer} (hr : r ∈ col) : LayerInRange r :=
  (columnInOrder_iff.1 h).2.2.1 r hr

/-- An update that keeps the heights keeps the column in order. -/
theorem LayerKept.column {f : Layer → Layer} (hf : LayerKept f) {col : List Layer} (h : ColumnInOrder col) :
    ColumnInOrder (col.map f) := by
  refine h.map id (fun r hr => ?_) (fun r _ => hf.heights r) (fun r => (hf.place r).1) fun r => (hf.place r).2
  obtain ⟨hh, hm, hi⟩ := h.range hr
  refine ⟨?_, hf.maturity r hm, (hf.place r).1 ▸ hi⟩
  rw [(hf.heights r).1, (hf.heights r).2]
  exact hh

/-! ### LCO: what its operations keep -/

theorem markExiting_kept (own : Int) : LayerKept (markExiting own) := by
  refine ⟨fun r => ?_, fun r => ?_, fun r => ?_⟩ <;> unfold markExiting <;> split <;> simp

theorem dropReleased_suffix (own : Int) (col : List Layer) : ∃ gone, col = gone ++ dropReleased own col := by
  obtain ⟨gone, h, -⟩ := dropReleased_parts own col
  exact ⟨gone, h⟩

theorem dropReleased_length (own : Int) (col : List Layer) : (dropReleased own col).length ≤ col.length := by
  obtain ⟨gone, h⟩ := dropReleased_suffix own col
  conv => rhs; rw [h, List.length_append]
  omega

theorem releasePass_length (own : Int) (l : Lco) : (releasePass own l).column.length ≤ l.column.length := by
  simpa [releasePass] using dropReleased_length own l.column

theorem releasePass_order (own : Int) {l : Lco} (h : LcoInOrder l) : LcoInOrder (releasePass own l) := by
  refine ⟨?_, h.counter⟩
  obtain ⟨gone, hg⟩ := dropReleased_suffix own l.column
  refine (markExiting_kept own).column (ColumnInOrder.of_suffix (a := gone) ?_)
  rw [← hg]
  exact h.order

theorem releasePass_keeps (h own : Int) (l : Lco) : LcoKeeps h l (releasePass own l) :=
  ⟨(releasePass_length own l).trans, fun _ => releasePass_order own⟩

theorem LcoKeeps.trans {own : Int} {a b c : Lco} (h : LcoKeeps own a b) (k : LcoKeeps own b c) : LcoKeeps own a c :=
  ⟨k.size ∘ h.size, fun ho => k.order ho ∘ h.order ho⟩

theorem LcoKeeps.refl (own : Int) (l : Lco) : LcoKeeps own l l := ⟨id, fun _ => id⟩

theorem shiftHeight_mono {d a b : Int} (h : a ≤ b) : shiftHeight d a ≤ shiftHeight d b := by
  simp only [shiftHeight, clamp]; omega

/-- A frame shift moves every boundary alike and limits it to the height range (R11). -/
theorem shiftColumn_keeps (h d own : Int) (l : Lco) : LcoKeeps h l (shiftColumn d own l) := by
  refine LcoKeeps.trans ?_ (releasePass_keeps h own _)
  refine ⟨fun hl => ?_, fun _ hl => ⟨?_, hl.counter⟩⟩
  · simpa using hl
  · refine hl.order.map (shiftHeight d) (fun r hr => ?_) (fun r _ => ⟨rfl, rfl⟩) (fun _ => rfl) fun _ => id
    obtain ⟨⟨-, hbt, -⟩, hm, hi⟩ := hl.order.range hr
    exact ⟨⟨(clamp_range _).1, shiftHeight_mono hbt, (clamp_range _).2⟩, hm, hi⟩

theorem youngest_parts {l : Lco} {r : Layer} (h : youngest l = some r) : l.column = l.column.dropLast ++ [r] :=
  (List.dropLast_append_getLast? r h).symm

theorem classify_state (own : Int) (r : Layer) : (classify own r).state ≠ .pouring := by
  unfold classify; split <;> simp

/-- The record that ends a pour by itself, or that the record before it takes in, and with it the column's end (R7, R8). -/
theorem endedColumn_length (own lMin : Int) (reason : EndReason) (l : Lco) (older : List Layer) (r : Layer) :
    (endedColumn own lMin reason l older r).length ≤ older.length + 1 := by
  unfold endedColumn
  split
  · split <;> simp
  · simp

theorem endedColumn_order {own lMin : Int} {reason : EndReason} {l : Lco} {older : List Layer} {r : Layer}
    (h : ColumnInOrder (older ++ [r])) :
    ColumnInOrder (endedColumn own lMin reason l older r) ∧
      ∀ x ∈ endedColumn own lMin reason l older r, x.state ≠ .pouring := by
  obtain ⟨ho, calm⟩ := h.older
  have hr := h.range (r := r) (by simp)
  have ended : LayerInRange (classify own (endedRecord reason l.pourSeconds r)) := ⟨hr.heights, hr.maturity, hr.id⟩
  unfold endedColumn
  split
  · next y hy =>
    have hparts : older = older.dropLast ++ [y] := (List.dropLast_append_getLast? y hy).symm
    split
    · have hyr := ho.range (List.mem_of_getLast? hy)
      have hbt : r.bottom = y.top :=
        ((List.isChain_append.1 (columnInOrder_iff.1 h).2.1).2.2 y hy r rfl).1
      obtain ⟨⟨y0, y1, y2⟩, -, yi⟩ := hyr
      obtain ⟨⟨r0, r1, r2⟩, -, -⟩ := hr
      rw [hparts] at ho
      refine ⟨ho.replace ⟨⟨y0, ?_, r2⟩, Nat.zero_le _, yi⟩ rfl rfl, fun x hx => ?_⟩
      · show y.bottom ≤ r.top
        omega
      · rcases List.mem_append.1 hx with hx | hx
        · exact calm x (List.mem_of_mem_dropLast hx)
        · rw [List.mem_singleton.1 hx]; exact classify_state _ _
    · refine ⟨h.replace ended rfl rfl, fun x hx => ?_⟩
      rcases List.mem_append.1 hx with hx | hx
      · exact calm x hx
      · rw [List.mem_singleton.1 hx]; exact classify_state _ _
  · next hn =>
    have : older = [] := List.getLast?_eq_none_iff.1 hn
    subst this
    exact ⟨h.replace ended rfl rfl, fun x hx => by rw [List.mem_singleton.1 hx]; exact classify_state _ _⟩

/-- An end request keeps the column in order, and leaves no record POURING (R7 to R9, R21). -/
theorem endLayer_order (own lMin : Int) (reason : EndReason) {l : Lco} (h : LcoInOrder l) :
    LcoInOrder (endLayer own lMin reason l) ∧ ∀ r ∈ (endLayer own lMin reason l).column, r.state ≠ .pouring := by
  unfold endLayer
  split
  · next r hr =>
    have parts := youngest_parts hr
    have ordered : ColumnInOrder (l.column.dropLast ++ [r]) := parts ▸ h.order
    split
    · obtain ⟨k, calm⟩ := endedColumn_order (own := own) (lMin := lMin) (reason := reason) (l := l) ordered
      refine ⟨releasePass_order own ⟨k, h.counter⟩, fun x hx => ?_⟩
      simp only [releasePass] at hx
      obtain ⟨y, hy, rfl⟩ := List.mem_map.1 hx
      obtain ⟨gone, hg⟩ := dropReleased_suffix own (endedColumn own lMin reason l l.column.dropLast r)
      exact fun hp => calm y (by rw [hg]; exact List.mem_append_right _ hy) (((markExiting_kept own).place y).2 hp)
    · next hs =>
      refine ⟨h, fun x hx => ?_⟩
      rw [parts] at hx
      rcases List.mem_append.1 hx with hx | hx
      · exact ordered.older.2 x hx
      · rw [List.mem_singleton.1 hx]; exact hs
  · next hn =>
    have : l.column = [] := List.getLast?_eq_none_iff.1 hn
    exact ⟨h, by simp [this]⟩

theorem endLayer_length (own lMin : Int) (reason : EndReason) (l : Lco) :
    (endLayer own lMin reason l).column.length ≤ l.column.length := by
  unfold endLayer
  split
  · next r hr =>
    split
    · refine (releasePass_length _ _).trans ?_
      have parts := congrArg List.length (youngest_parts hr)
      rw [List.length_append, List.length_singleton] at parts
      exact (endedColumn_length _ _ _ _ _ _).trans parts.ge
    · exact le_rfl
  · exact le_rfl

theorem endLayer_keeps (h own lMin : Int) (reason : EndReason) (l : Lco) : LcoKeeps h l (endLayer own lMin reason l) :=
  ⟨(endLayer_length own lMin reason l).trans, fun _ k => (endLayer_order own lMin reason k).1⟩

theorem not_anyPouring {l : Lco} (h : ¬ anyPouring l = true) : ∀ r ∈ l.column, r.state ≠ .pouring := by
  simpa [anyPouring] using h

/-- The top of the column lies in the height range where own height does. -/
theorem ctop_range {own : Int} (ho : 0 ≤ own ∧ own ≤ 1000000) {l : Lco} (h : ColumnInOrder l.column) :
    0 ≤ ctop own l ∧ ctop own l ≤ 1000000 := by
  unfold ctop
  split
  · next r hr =>
    obtain ⟨⟨h0, h1, h2⟩, -, -⟩ := h.range (List.mem_of_getLast? hr)
    omega
  · exact ho

theorem ctop_youngest {own : Int} {l : Lco} {y : Layer} (h : l.column.getLast? = some y) : ctop own l = y.top := by
  have : youngest l = some y := h
  simp [ctop, this]

/-- An open request appends a POURING record, or reopens the youngest of a full column (R4, R5). -/
theorem openLayer_keeps (own : Int) (l : Lco) : LcoKeeps own l (openLayer own l) := by
  unfold openLayer
  split
  · exact .refl own l
  · next hp =>
    split
    · next h12 =>
      refine ⟨fun _ => by simp; omega, fun ho h => ⟨?_, Nat.mod_lt _ (by omega)⟩⟩
      have hc := ctop_range ho h.order
      exact h.order.snoc (not_anyPouring hp) h12 ⟨⟨hc.1, le_rfl, hc.2⟩, Nat.zero_le _, allocatedId_lt h⟩
        (fun y hy => ctop_youngest hy) (allocatedId_fresh h)
    · split
      · next r hr =>
        have parts := youngest_parts hr
        refine ⟨fun hl => ?_, fun ho h => ⟨?_, h.counter⟩⟩
        · rw [parts] at hl
          simpa using hl
        · have ordered : ColumnInOrder (l.column.dropLast ++ [r]) := parts ▸ h.order
          obtain ⟨hh, -, hi⟩ := ordered.range (r := r) (by simp)
          exact ordered.replace ⟨hh, Nat.zero_le _, hi⟩ rfl rfl
      · exact .refl own l

/-- A good FILL reading raises the POURING record's top, which no record stands on (R6). -/
theorem raiseTop_keeps (own h formHeight gap : Int) (l : Lco) : LcoKeeps h l (raiseTop own formHeight gap l) := by
  refine ⟨fun hl => by simpa [raiseTop] using hl, fun _ k => ⟨?_, k.counter⟩⟩
  have calm_map : ∀ a : List Layer, (∀ x ∈ a, x.state ≠ .pouring) →
      (a.map fun r => if r.state = .pouring then { r with top := max r.top (candidateTop own formHeight gap) } else r) = a :=
    fun a ha => (List.map_congr_left fun x hx => if_neg (ha x hx)).trans (List.map_id a)
  cases hy : l.column.getLast? with
  | none =>
    have : l.column = [] := List.getLast?_eq_none_iff.1 hy
    simp [raiseTop, this, columnInOrder_nil]
  | some r =>
    have parts : l.column = l.column.dropLast ++ [r] := (List.dropLast_append_getLast? r hy).symm
    have ordered : ColumnInOrder (l.column.dropLast ++ [r]) := parts ▸ k.order
    obtain ⟨⟨h0, h1, h2⟩, hm, hi⟩ := ordered.range (r := r) (by simp)
    simp only [raiseTop]
    rw [parts, List.map_append, calm_map _ ordered.older.2, List.map_singleton]
    split
    · have : candidateTop own formHeight gap ≤ 1000000 := by simp only [candidateTop, maxHeight]; omega
      exact ordered.replace ⟨⟨h0, by simp only; omega, by simp only; omega⟩, hm, hi⟩ rfl rfl
    · exact ordered

/-- The first good FILL reading after a cold start makes one record in an empty column at most (R22). -/
theorem makeKnown_keeps (own formHeight gap : Int) (l : Lco) : LcoKeeps own l (makeKnown own formHeight gap l) := by
  unfold makeKnown
  split
  · next h =>
    obtain ⟨htop, hempty⟩ := h
    refine ⟨fun _ => by simp [hempty], fun ho k => ⟨?_, Nat.mod_lt _ (by omega)⟩⟩
    have : candidateTop own formHeight gap ≤ 1000000 := by simp only [candidateTop, maxHeight]; omega
    simp only [hempty]
    refine columnInOrder_nil.snoc (by simp) (by simp) ⟨⟨ho.1, ?_, this⟩, Nat.zero_le _, allocatedId_lt k⟩ (by simp) (by simp)
    exact Int.le_of_lt htop
  · exact ⟨id, fun _ k => ⟨k.order, k.counter⟩⟩

theorem fillReading_keeps (own formHeight gap : Int) (l : Lco) : LcoKeeps own l (fillReading own formHeight gap l) := by
  unfold fillReading
  split
  · exact raiseTop_keeps own own formHeight gap l
  · exact makeKnown_keeps own formHeight gap l

theorem satAdd_le (limit n k : Nat) : satAdd limit n k ≤ limit := by simp only [satAdd]; omega

/-- A tick changes maturities and the fallback flag alone (R13 to R15). -/
theorem tickLayer_kept (own formHeight t0 tfb : Int) (probes : List Probe) :
    LayerKept (tickLayer own formHeight t0 tfb probes) := by
  refine ⟨fun r => ?_, fun r => ?_, fun r _ => ?_⟩ <;> unfold tickLayer <;> split <;> simp [gainMaturity, satAdd_le]

theorem tickColumn_keeps (h own formHeight t0 tfb : Int) (probes : List Probe) (l : Lco) :
    LcoKeeps h l (tickColumn own formHeight t0 tfb probes l) :=
  ⟨fun hl => by simpa [tickColumn] using hl,
    fun _ k => ⟨(tickLayer_kept own formHeight t0 tfb probes).column k.order, k.counter⟩⟩

theorem creditLayer_kept (minutes : Nat) (t0 tfb : Int) : LayerKept (creditLayer minutes t0 tfb) :=
  ⟨fun _ => ⟨rfl, id⟩, fun _ => ⟨rfl, rfl⟩, fun _ _ => satAdd_le _ _ _⟩

/-- An update that leaves the column and the id counter. -/
theorem LcoKeeps.of_same {own : Int} {l l' : Lco} (column : l'.column = l.column) (counter : l'.nextId = l.nextId) :
    LcoKeeps own l l' :=
  ⟨fun h => by rw [column]; exact h, fun _ k => ⟨column ▸ k.order, counter ▸ k.counter⟩⟩

/-- An AMEND changes the maturity and the amended flag of one record (R25). -/
theorem amendLayer_keeps {own : Int} {position v id : Nat} {l l' : Lco} (h : amendLayer position v l = .done id l') :
    LcoKeeps own l l' := by
  unfold amendLayer at h
  split at h
  · next r hr =>
    split at h
    · cases h
    · split at h
      · cases h
      · next hv =>
        cases h
        obtain ⟨hlt, rfl⟩ := List.getElem?_eq_some_iff.1 hr
        refine ⟨fun hl => by simpa using hl, fun _ k => ⟨?_, k.counter⟩⟩
        obtain ⟨size, chain, range, distinct⟩ := columnInOrder_iff.1 k.order
        rw [List.isChain_iff_getElem] at chain
        refine columnInOrder_iff.2 ⟨by simpa using size, List.isChain_iff_getElem.2 fun i hi => ?_, fun x hx => ?_, ?_⟩
        · have := chain i (by simpa using hi)
          simp only [List.getElem_set]
          split <;> split <;> simp_all
        · rcases List.mem_or_eq_of_mem_set hx with hx | rfl
          · exact range x hx
          · obtain ⟨hh, -, hi⟩ := range _ (List.getElem_mem hlt)
            exact ⟨hh, by simp only; omega, hi⟩
        · rw [List.map_set]
          convert distinct using 1
          refine List.ext_getElem (by simp) fun i h1 h2 => ?_
          rw [List.getElem_set]
          split
          · next hi => subst hi; simp
          · rfl
  · cases h

/-! ### MCT -/

theorem MctKeeps.of_same {m m' : Mct} (window : m'.window = m.window)
    (clash : m.safe.identityClash = true → m'.safe.identityClash = true) : MctKeeps m m' :=
  ⟨fun h => by rw [window]; exact h, clash⟩

theorem joinWindow_length (n : Nat) (w : List Nat) : (joinWindow n w).length ≤ 10 := by
  simp [joinWindow]

theorem safePut_identityClash {f : SafeSet} (c : SafeCause) (h : f.identityClash = true) :
    (safePut f c true).identityClash = true := by
  cases c with
  | identityClash => rfl
  | _ => exact h

/-! ### SRS -/

/-- An update that leaves the active settings, the area, the life and the writes. -/
theorem SrsKeeps.of_same {cal : Prop} {r r' : Srs} (active : r'.active = r.active) (area : r'.area = r.area) (life : r'.life = r.life)
    (writes : r'.stored = r.stored ∧ r'.write = r.write ∧ r'.writesWaiting = r.writesWaiting) : SrsKeeps cal r r' := by
  obtain ⟨h1, h2, h3⟩ := writes
  refine ⟨by rw [active], fun _ => active, area, life, fun k => ⟨?_, ?_, ?_⟩⟩
  · rw [h1, h2]; exact k.absent
  · rw [h2, h3]; exact k.queue
  · rw [h2, life]; exact k.up

theorem askWrite_fields (w : BlockWrite) (r : Srs) :
    (askWrite w r).active = r.active ∧ (askWrite w r).area = r.area ∧ (askWrite w r).life = r.life ∧
      (askWrite w r).step = r.step ∧ (askWrite w r).staged = r.staged ∧
      (askWrite w r).calibrationPending = r.calibrationPending := by
  unfold askWrite
  split <;> simp [beginWrite]

theorem askWrite_moves {cal : Prop} (w : BlockWrite) {r : Srs} (up : r.life = .up) : SrsKeeps cal r (askWrite w r) := by
  obtain ⟨active, area, life, -⟩ := askWrite_fields w r
  exact ⟨by rw [active], fun _ => active, area, life, fun k => askWrite_keeps w k up⟩

theorem SrsKeeps.trans {cal : Prop} {a b c : Srs} (h : SrsKeeps cal a b) (k : SrsKeeps cal b c) : SrsKeeps cal a c :=
  ⟨by rw [k.active, h.active], fun hc => (k.fixed hc).trans (h.fixed hc), k.area.trans h.area, k.life.trans h.life, k.writes ∘ h.writes⟩

theorem calibrationSuccess_keeps (m : Int) {r : Srs} (up : r.life = .up) : SrsKeeps True r (calibrationSuccess m r) := by
  have changed : SrsKeeps True r
      { r with
        active := { r.active with fullStroke := some m }, calibrationPending := false
        staged := calibratedBlock m r.staged } :=
    ⟨rfl, fun h => absurd trivial h, rfl, rfl, fun k => ⟨k.absent, k.queue, k.up⟩⟩
  simp only [calibrationSuccess]
  split
  · exact changed.trans (askWrite_moves _ up)
  · exact changed

theorem SrsKeeps.refl {cal : Prop} (r : Srs) : SrsKeeps cal r r := ⟨rfl, fun _ => rfl, rfl, rfl, id⟩

/-- The outcome of a calibration stroke at SRS (R197). -/
theorem calibrationOutcome_keeps (st : Stroke) {r : Srs} (up : r.life = .up) : SrsKeeps True r (calibrationOutcome st r) := by
  have tested : SrsKeeps True r (match calibratedStroke st with | some m => calibrationSuccess m r | none => r) := by
    split
    · exact calibrationSuccess_keeps _ up
    · exact .refl r
  have listened : ∀ r1 : Srs, SrsKeeps True r r1 →
      SrsKeeps True r (if r1.step = .calibrating then { r1 with step := .joinListen, joinMs := 0 } else r1) := by
    intro r1 h
    split
    · exact h.trans (.of_same rfl rfl rfl ⟨rfl, rfl, rfl⟩)
    · exact h
  exact listened _ tested

/-! ### PVW -/

/-- The order of R37 as a relation. -/
def PeerOrder (a b : Peer) : Prop := a.sector < b.sector ∨ (a.sector = b.sector ∧ a.station < b.station)

theorem peerBefore_iff (a b : Peer) : peerBefore a b = true ↔ PeerOrder a b := decide_eq_true_iff

theorem mem_insertPeer {p q : Peer} {t : List Peer} : q ∈ insertPeer p t ↔ q = p ∨ q ∈ t := by
  induction t with
  | nil => simp [insertPeer]
  | cons x xs ih =>
    simp only [insertPeer]
    split
    · simp
    · simp [ih]; tauto

theorem insertPeer_length (p : Peer) (t : List Peer) : (insertPeer p t).length = t.length + 1 := by
  induction t with
  | nil => rfl
  | cons x xs ih => simp only [insertPeer]; split <;> simp [ih]

/-- An entry of another station is placed in sector order. -/
theorem insertPeer_order {p : Peer} {t : List Peer} (h : t.Pairwise PeerOrder) (new : ∀ q ∈ t, q.station ≠ p.station) :
    (insertPeer p t).Pairwise PeerOrder := by
  induction t with
  | nil => simp [insertPeer]
  | cons x xs ih =>
    obtain ⟨hx, hxs⟩ := List.pairwise_cons.1 h
    have hnew := new x (by simp)
    simp only [insertPeer]
    split
    · next hb =>
      rw [peerBefore_iff] at hb
      refine List.pairwise_cons.2 ⟨fun q hq => ?_, h⟩
      rcases List.mem_cons.1 hq with rfl | hq
      · exact hb
      · have := hx q hq
        simp only [PeerOrder] at hb this ⊢
        omega
    · next hb =>
      rw [peerBefore_iff] at hb
      refine List.pairwise_cons.2 ⟨fun q hq => ?_, ih hxs fun q hq => new q (by simp [hq])⟩
      rcases mem_insertPeer.1 hq with rfl | hq
      · simp only [PeerOrder] at hb ⊢
        omega
      · exact hx q hq

theorem insertPeer_distinct {p : Peer} {t : List Peer} (h : (t.map Peer.station).Nodup)
    (new : ∀ q ∈ t, q.station ≠ p.station) : ((insertPeer p t).map Peer.station).Nodup := by
  induction t with
  | nil => simp [insertPeer]
  | cons x xs ih =>
    simp only [List.map_cons, List.nodup_cons] at h
    simp only [insertPeer]
    split
    · simp only [List.map_cons, List.nodup_cons]
      refine ⟨?_, h⟩
      rw [← List.map_cons, List.mem_map]
      rintro ⟨q, hq, he⟩
      exact new q hq he
    · simp only [List.map_cons, List.nodup_cons]
      refine ⟨?_, ih h.2 fun q hq => new q (by simp [hq])⟩
      rw [List.mem_map]
      rintro ⟨q, hq, he⟩
      rcases mem_insertPeer.1 hq with rfl | hq
      · exact new x (by simp) he.symm
      · exact h.1 (List.mem_map.2 ⟨q, hq, he⟩)

/-- An entry's station, sector and height as R27, R28 and R31 have them. -/
structure PeerInRange (own ring : Nat) (p : Peer) : Prop where
  station : 1 ≤ p.station ∧ p.station ≤ 62 ∧ p.station ≠ own
  sector : p.sector < ring
  height : 0 ≤ p.height ∧ p.height ≤ 1000000

theorem TableInOrder.range {own ring : Nat} {t : List Peer} (h : TableInOrder own ring t) {p : Peer} (hp : p ∈ t) :
    PeerInRange own ring p := ⟨h.stations p hp, h.sectors p hp, h.heights p hp⟩

theorem TableInOrder.insert {own ring : Nat} {t : List Peer} (h : TableInOrder own ring t) {p : Peer}
    (hp : PeerInRange own ring p) (new : ∀ q ∈ t, q.station ≠ p.station) : TableInOrder own ring (insertPeer p t) := by
  have range : ∀ q ∈ insertPeer p t, PeerInRange own ring q := fun q hq => by
    rcases mem_insertPeer.1 hq with rfl | hq
    · exact hp
    · exact h.range hq
  exact ⟨insertPeer_order h.order new, insertPeer_distinct h.distinct new, fun q hq => (range q hq).station,
    fun q hq => (range q hq).sector, fun q hq => (range q hq).height⟩

theorem TableInOrder.sublist {own ring : Nat} {t u : List Peer} (h : TableInOrder own ring t) (hs : u.Sublist t) :
    TableInOrder own ring u :=
  ⟨h.order.sublist hs, h.distinct.sublist (hs.map _), fun p hp => h.stations p (hs.subset hp),
    fun p hp => h.sectors p (hs.subset hp), fun p hp => h.heights p (hs.subset hp)⟩

theorem removePeer_sublist (n : Nat) (t : List Peer) : (removePeer n t).Sublist t := List.filter_sublist

theorem mem_removePeer {n : Nat} {t : List Peer} {q : Peer} (h : q ∈ removePeer n t) : q.station ≠ n := by
  simp [removePeer] at h; exact h.2

theorem TableInOrder.put {own ring : Nat} {t : List Peer} (h : TableInOrder own ring t) {p : Peer}
    (hp : PeerInRange own ring p) : TableInOrder own ring (putPeer p t) :=
  (h.sublist (removePeer_sublist _ t)).insert hp fun _ hq => mem_removePeer hq

theorem findPeer_mem {n : Nat} {t : List Peer} {e : Peer} (h : findPeer n t = some e) : e ∈ t ∧ e.station = n :=
  ⟨List.mem_of_find?_eq_some h, by simpa using List.find?_some h⟩

/-- An entry put in the place of the one its station has leaves no more entries than there were. -/
theorem putPeer_length {t : List Peer} {e p : Peer} (he : e ∈ t) (hp : p.station = e.station) :
    (putPeer p t).length ≤ t.length := by
  rw [putPeer, insertPeer_length, removePeer]
  have : (t.filter fun q => decide (q.station ≠ p.station)).length < t.length := by
    rw [List.length_filter_lt_length_iff_exists]
    exact ⟨e, he, by simp [hp]⟩
  omega

theorem PvwKeeps.of_peers {wf : Prop} {own ring : Nat} {p p' : Pvw} (h : p'.peers = p.peers) : PvwKeeps wf own ring p p' :=
  ⟨fun k => by rw [h]; exact k, fun _ k => by rw [h]; exact k⟩

/-- An entry replaced by one of its station, with a sector and a height in their ranges. -/
theorem putPeer_keeps {wf : Prop} {own ring : Nat} {p : Pvw} {e e' : Peer} (he : e ∈ p.peers) (hs : e'.station = e.station)
    (hr : wf → PeerInRange own ring e → PeerInRange own ring e') :
    PvwKeeps wf own ring p { p with peers := putPeer e' p.peers } :=
  ⟨(putPeer_length he hs).trans, fun w k => k.put (hr w (k.range he))⟩

/-- An entry of a new station in a table that is not full. -/
theorem insertPeer_keeps {wf : Prop} {own ring : Nat} {p : Pvw} {e : Peer} (size : p.peers.length < 47)
    (new : ∀ q ∈ p.peers, q.station ≠ e.station) (hr : wf → PeerInRange own ring e) :
    PvwKeeps wf own ring p { p with peers := insertPeer e p.peers } :=
  ⟨fun _ => by simp [insertPeer_length]; omega, fun w k => k.insert (hr w) new⟩

theorem findPeer_none {n : Nat} {t : List Peer} (h : findPeer n t = none) : ∀ q ∈ t, q.station ≠ n := by
  simpa [findPeer] using h

/-- The ages counted on leave stations, sectors and heights (R28). -/
theorem peerPassed_keeps (wf : Prop) (own ring : Nat) (p : Pvw) :
    PvwKeeps wf own ring p { p with peers := p.peers.map peerPassed } := by
  refine ⟨fun h => by simpa using h, fun _ k => ⟨?_, ?_, ?_, ?_, ?_⟩⟩
  · exact List.pairwise_map.2 k.order
  · rw [List.map_map]; exact k.distinct
  · intro q hq; obtain ⟨x, hx, rfl⟩ := List.mem_map.1 hq; exact k.stations x hx
  · intro q hq; obtain ⟨x, hx, rfl⟩ := List.mem_map.1 hq; exact k.sectors x hx
  · intro q hq; obtain ⟨x, hx, rfl⟩ := List.mem_map.1 hq; exact k.heights x hx

end Sys2Proof.Machine
end

section
/-! Every shared operation as a chain of moves: what it can do to any block, said once. -/

namespace Sys2Proof.Machine

variable {wf cal : Prop}

theorem Moved.lif {s : State} {l : Lif} (h : LifKeeps s.lif l) : Moved wf cal s (s.setLif l) := (Move.lif h).moved
theorem Moved.ssq {s : State} {q : Ssq} (h : SsqKeeps s.ssq q) : Moved wf cal s (s.setSsq q) := (Move.ssq h).moved
theorem Moved.lco {s : State} {l : Lco} (h : LcoKeeps s.ssq.height s.lco l) : Moved wf cal s (s.setLco l) := (Move.lco h).moved
theorem Moved.mct {s : State} {m : Mct} (h : MctKeeps s.mct m) : Moved wf cal s (s.setMct m) := (Move.mct h).moved
theorem Moved.srs {s : State} {r : Srs} (h : SrsKeeps cal s.srs r) : Moved wf cal s (s.setSrs r) := (Move.srs h).moved
theorem Moved.fct (s : State) (x : Fct) : Moved wf cal s (s.setFct x) := (Move.fct x).moved
theorem Moved.msq (s : State) (x : Msq) : Moved wf cal s (s.setMsq x) := (Move.msq x).moved
theorem Moved.ors (s : State) (x : Ors) : Moved wf cal s (s.setOrs x) := (Move.ors x).moved
theorem Moved.pins (s : State) (x : Pins) : Moved wf cal s (s.setPins x) := (Move.pins x).moved
theorem Moved.freeCount (s : State) (x : Nat) : Moved wf cal s (s.setFreeCount x) := (Move.freeCount x).moved

theorem Moved.pvw {s : State} {p : Pvw} (h : PvwKeeps wf (ownStation s) (ringOf s.srs.active) s.pvw p) :
    Moved wf cal s (s.setPvw p) := (Move.pvw h).moved

theorem Moved.cpl {s : State} {x : Cpl} (h : -32 ≤ s.cpl.trim ∧ s.cpl.trim ≤ 31 → -32 ≤ x.trim ∧ x.trim ≤ 31) :
    Moved wf cal s (s.setCpl x) := (Move.cpl h).moved

/-! ### Requests to LIF -/

theorem requestLevel_moved (s : State) : Moved wf cal s (requestLevel s) := .lif (wantLevelPost_keeps _ _)

theorem queueGate_moved (y : Bool) (s : State) : Moved wf cal s (queueGate y s) :=
  .branch (fun _ => .refl s) fun _ => .lif (queueGatePost_keeps _ _)

theorem queueHalt_moved (p : HaltPost) (s : State) : Moved wf cal s (queueHalt p s) :=
  .branch (fun _ => .refl s) fun _ => .after (.mct (.of_same rfl id)) (.lif (queueHaltPost_keeps p s.lif))

theorem sendReply_moved (n : Nat) (code : Byte) (r : Result) (d : List Byte) (s : State) :
    Moved wf cal s (sendReply n code r d s) := .lif (queueReplyPost_keeps _ _)

/-! ### Own height and cuts -/

theorem frameShiftTo_moved (h : Int) (v : Bool) (s : State) : Moved wf cal s (frameShiftTo h v s) := by
  have shifted : SsqKeeps s.ssq
      { s.ssq with height := clamp 0 maxHeight h, heightValid := v, heightLimit := limitMark h s.ssq.heightLimit } :=
    ⟨id, fun k => ⟨k.lift, k.release⟩, fun _ => clamp_range h⟩
  exact .branch (fun _ => .ssq shifted) fun _ => .after (.lco (shiftColumn_keeps _ _ _ _)) (.ssq shifted)

theorem cutStroke_moved (s : State) : Moved wf cal s (cutStroke s) := by
  unfold cutStroke
  split
  · next h => exact .after (.ssq (leavePressurize_keeps _ (by simp [h]))) (.msq s _)
  · next h => exact .ssq (leaveLift_keeps _ _ (by simp [h]))
  · exact .refl s

/-! ### The gate and the pour -/

theorem setPour_moved (p : PourState) (s : State) : Moved wf cal s (setPour p s) := .fct _ _

theorem gateChanged_moved (y : Bool) (s : State) : Moved wf cal s (gateChanged y s) :=
  .after (requestLevel_moved _) (queueGate_moved y s)

theorem tryClaim_moved (s : State) : Moved wf cal s (tryClaim s) :=
  .branch (fun _ => .after (.fct _ _) (.lif (queueClaimPost_keeps _ _))) fun _ => .refl s

theorem enterWant_moved (s : State) : Moved wf cal s (enterWant s) := .after (tryClaim_moved _) (setPour_moved _ s)

theorem wantOrDry_moved (s : State) : Moved wf cal s (wantOrDry s) :=
  .branch (fun _ => enterWant_moved s) fun _ => setPour_moved _ s

theorem testDry_moved (s : State) : Moved wf cal s (testDry s) := .branch (fun _ => enterWant_moved s) fun _ => .refl s

theorem enterBackoff_moved (n : Nat) (s : State) : Moved wf cal s (enterBackoff n s) := .fct _ _

/-- A change of gate state with its posts. -/
theorem gateSet_moved (y : Bool) (f : Fct) (s : State) : Moved wf cal s (gateChanged y (s.setFct f)) :=
  .after (gateChanged_moved y _) (.fct s f)

theorem enterClosed_moved (s : State) : Moved wf cal s (enterClosed s) := by
  simp only [enterClosed]
  split
  · split
    · exact .after (enterBackoff_moved _ _) (.after (.fct _ _) (gateSet_moved _ _ s))
    · exact .after (wantOrDry_moved _) (gateSet_moved _ _ s)
  · exact .after (testDry_moved _) (gateSet_moved _ _ s)
  · exact gateSet_moved _ _ s

theorem enterClosing_moved (y : Bool) (s : State) : Moved wf cal s (enterClosing y s) :=
  .branch (fun _ => .after (enterClosed_moved _) (gateSet_moved _ _ s)) fun _ => gateSet_moved _ _ s

theorem enterOpened_moved (s : State) : Moved wf cal s (enterOpened s) := gateSet_moved _ _ s

theorem enterOpening_moved (s : State) : Moved wf cal s (enterOpening s) :=
  .branch (fun _ => .after (enterOpened_moved _) (gateSet_moved _ _ s)) fun _ => gateSet_moved _ _ s

theorem endPour_moved (r : EndReason) (s : State) : Moved wf cal s (endPour r s) := by
  refine .after (.lco (endLayer_keeps _ _ _ _ _)) ?_
  exact .branch (fun _ => .after (enterClosing_moved _ _) (setPour_moved _ s)) fun _ => setPour_moved _ s

theorem openPour_moved (n : Int) (s : State) : Moved wf cal s (openPour n s) :=
  .after (.lco (openLayer_keeps _ _)) (.after (.fct _ _) (.after (enterOpening_moved _) (.fct s _)))

theorem abandonClaim_moved (s : State) : Moved wf cal s (abandonClaim s) := by
  unfold abandonClaim
  split
  · exact .after (.fct _ _) (.branch (fun _ => .refl s) fun _ => .lif (withdrawClaimPost_keeps _))
  · exact setPour_moved _ s

theorem beginBlock_moved (s : State) : Moved wf cal s (beginBlock s) := by
  unfold beginBlock
  split
  case h_1 => exact .refl s
  case h_2 => exact setPour_moved _ s
  case h_3 => exact abandonClaim_moved s
  case h_4 => exact setPour_moved _ s
  case h_5 => exact endPour_moved _ s
  case h_6 => exact .refl s

theorem reportBlock_moved (s : State) : Moved wf cal s (reportBlock s) :=
  .branch (fun _ => .refl s) fun _ =>
    .branch (fun _ => .after (beginBlock_moved _) (.fct s _)) fun _ => .after (testDry_moved _) (.fct s _)

theorem yieldTest_moved (s : State) : Moved wf cal s (yieldTest s) :=
  .branch (fun _ => .after (endPour_moved _ _) (.fct s _)) fun _ => .refl s

theorem signalFeed_moved (a b : Bool) (s : State) : Moved wf cal s (signalFeed a b s) := by
  have yielded : Moved wf cal s (if a = true ∧ s.fct.pour = .pouring then yieldTest s else s) :=
    .branch (fun _ => yieldTest_moved s) fun _ => .refl s
  exact .branch (fun _ => .after (tryClaim_moved _) yielded) fun _ => yielded

theorem raiseBindNeed_moved (s : State) : Moved wf cal s (raiseBindNeed s) :=
  .branch (fun _ => .after (queueGate_moved _ _) (.fct s _)) fun _ => .refl s

/-! ### The cause sets and the mode -/

theorem afterCauses_moved (m : Mct) (s : State) : Moved wf cal s (afterCauses m s) := by
  have wanted : Moved wf cal s (if decide (modeOf m ≠ modeOf s.mct) then requestLevel s else s) :=
    .branch (fun _ => requestLevel_moved s) fun _ => .refl s
  refine .after (reportBlock_moved _) ?_
  refine .branch (fun _ => .after (.mct (.of_same rfl id)) ?_) (fun _ => ?_) <;>
    exact .branch (fun _ => .after (.ors _ _) wanted) fun _ => wanted

theorem addHold_moved (c : HoldCause) (s : State) : Moved wf cal s (addHold c s) := by
  have put : Moved wf cal s (s.setMct { s.mct with hold := holdPut s.mct.hold c true }) := .mct (.of_same rfl id)
  exact .after (afterCauses_moved _ _) (.branch (fun _ => .after (cutStroke_moved _) put) fun _ => put)

theorem removeHold_moved (c : HoldCause) (s : State) : Moved wf cal s (removeHold c s) :=
  .after (afterCauses_moved _ _) (.mct (.of_same rfl id))

theorem haltForEntry_moved (c : SafeCause) (s : State) : Moved wf cal s (haltForEntry c s) := by
  unfold haltForEntry
  split
  · exact queueHalt_moved _ s
  · exact .refl s

theorem addSafe_moved (c : SafeCause) (s : State) : Moved wf cal s (addSafe c s) := by
  have put : Moved wf cal s (s.setMct { s.mct with safe := safePut s.mct.safe c true }) :=
    .mct (.of_same rfl fun h => safePut_identityClash c h)
  exact .branch (fun _ => .refl s) fun _ => .branch
    (fun _ => .after (haltForEntry_moved _ _) (.after (afterCauses_moved _ _) (.after (cutStroke_moved _) put))) fun _ => put

/-- Causes leave the SAFE set; IDENTITY_CLASH is not one of them. -/
theorem reduceSafe_moved {f : SafeSet} {s : State} (h : s.mct.safe.identityClash = true → f.identityClash = true) :
    Moved wf cal s (reduceSafe f s) :=
  .branch (fun _ => .refl s) fun _ => .after (afterCauses_moved _ _) (.mct (.of_same rfl h))

theorem removeSafe_moved {c : SafeCause} (hc : c ≠ .identityClash) (s : State) : Moved wf cal s (removeSafe c s) :=
  reduceSafe_moved fun h => by
    cases c with
    | identityClash => exact absurd rfl hc
    | _ => exact h

theorem retestClash_moved (s : State) : Moved wf cal s (retestClash s) := by
  refine .branch (fun _ => .refl s) fun _ => ?_
  exact .branch (fun _ => .after (addSafe_moved _ _) (.pvw (.of_peers rfl)))
    fun _ => .after (removeSafe_moved (by decide) _) (.pvw (.of_peers rfl))

theorem identityClash_moved (s : State) : Moved wf cal s (identityClash s) :=
  .after (.lif (silenced_keeps _)) (.after (addSafe_moved _ _) (.pvw (.of_peers rfl)))

/-! ### The stroke -/

theorem laserCorrect_moved (s : State) : Moved wf cal s (laserCorrect s) := by
  unfold laserCorrect
  split
  · exact .refl s
  · split
    · exact .after (.ssq (.of_same rfl rfl rfl rfl rfl)) (frameShiftTo_moved _ _ s)
    · exact .ssq (.of_same rfl rfl rfl rfl rfl)

theorem laserAdopt_moved (s : State) : Moved wf cal s (laserAdopt s) := by
  unfold laserAdopt
  split
  · exact frameShiftTo_moved _ _ s
  · exact .refl s

theorem nullCycle_moved (s : State) : Moved wf cal s (nullCycle s) :=
  .branch (fun _ => laserCorrect_moved s) fun _ => laserAdopt_moved s

theorem climbBy_moved {d : Int} (hd : 0 ≤ d) (s : State) : Moved wf cal s (climbBy d s) := by
  have climbed : SsqKeeps s.ssq
      { s.ssq with
        height := min maxHeight (s.ssq.height + d)
        heightLimit := limitMark (s.ssq.height + d) s.ssq.heightLimit } :=
    ⟨id, fun k => ⟨k.lift, k.release⟩, fun k => by simp only [maxHeight]; omega⟩
  exact .after (.lco (releasePass_keeps _ _ _)) (.ssq climbed)

theorem reportFaults_moved (n : Nat) (s : State) : Moved wf cal s (reportFaults n s) := by
  have joined : Moved wf cal s (s.setMct { s.mct with window := joinWindow n s.mct.window }) :=
    .mct ⟨fun _ => joinWindow_length _ _, id⟩
  exact .branch (fun _ => .after (addSafe_moved _ _) joined) fun _ => joined

theorem reportOutcome_moved (st : Stroke) {s : State} (up : s.srs.life = .up) : Moved wf True s (reportOutcome st s) :=
  .branch (fun _ => .srs (calibrationOutcome_keeps st up)) fun _ => reportFaults_moved _ s

theorem settleLaser_moved (st : Stroke) (s : State) : Moved wf cal s (settleLaser st s).2 := by
  unfold settleLaser
  split
  · exact laserCorrect_moved s
  · exact .refl s

/-- A completed stroke leaves SSQ idle: with the phase at SETTLE both valves are off. -/
theorem strokeDone_keeps {q : Ssq} (hp : q.phase = .settle) : SsqKeeps q { q with stroke := none, phase := .idle } :=
  .of_phase rfl rfl fun k => ⟨fun h => absurd h (by simp [k.lift_off (by simp [hp]) (by simp [hp])]),
    fun h => absurd h (by simp [k.release_off (by simp [hp])])⟩

/-- The last part of a completion, from the stroke's record on (R74, R86). -/
theorem recordStroke_moved (r : HistoryRec) {s : State} (hp : s.ssq.phase = .settle) :
    Moved wf True s
      (((requestLevel (s.setSsq { s.ssq with history := joinHistory r s.ssq.history })).setSsq
        { (requestLevel (s.setSsq { s.ssq with history := joinHistory r s.ssq.history })).ssq with
          stroke := none, phase := .idle }).setMct
        { (requestLevel (s.setSsq { s.ssq with history := joinHistory r s.ssq.history })).mct with settling := false }) :=
  .after (.mct (.of_same rfl id)) (.after (.ssq (strokeDone_keeps hp))
    (.after (requestLevel_moved _) (.ssq ⟨fun _ => joinHistory_length, fun k => ⟨k.lift, k.release⟩, id⟩)))

/-- The completion of SETTLE, the node being up (R74). -/
theorem completeSettle_moved (st : Stroke) {s : State} (hp : s.ssq.phase = .settle) (up : s.srs.life = .up) :
    Moved wf True s (completeSettle st s) := by
  have counted : ∀ u : State, Moved wf True s u → u.ssq.phase = .settle → ∀ st' n,
      Moved wf True s (reportOutcome st' (u.setSsq { u.ssq with strokeCount := n })) ∧
        (reportOutcome st' (u.setSsq { u.ssq with strokeCount := n })).ssq.phase = .settle := by
    intro u hu hup st' n
    have moved : Moved wf True s (u.setSsq { u.ssq with strokeCount := n }) := .after (.ssq (.of_same rfl rfl rfl rfl rfl)) hu
    refine ⟨.after (reportOutcome_moved _ (moved.up up)) moved, ?_⟩
    rw [(reportOutcome_calm st' (s := u.setSsq { u.ssq with strokeCount := n }) (by simp [hup]) (by simp [hup])).1]
    exact hup
  have laser : Moved wf True s (settleLaser st (climbBy (climbedDistance s.srs.active.takeUp st) s)).2 :=
    .after (settleLaser_moved st _) (climbBy_moved (climbedDistance_spec _ st).1 s)
  obtain ⟨moved, phase⟩ := counted _ laser (by simp [hp]) (settleLaser st (climbBy (climbedDistance s.srs.active.takeUp st) s)).1
    (((settleLaser st (climbBy (climbedDistance s.srs.active.takeUp st) s)).2.ssq.strokeCount + 1) % 256)
  exact .after (recordStroke_moved _ phase) moved

theorem deliverSample_moved (tag : Tag) (p : Sample) {s : State} (up : s.srs.life = .up) :
    Moved wf True s (deliverSample tag p s) := by
  unfold deliverSample
  split
  · exact .refl s
  · next st _ =>
    have stored : Moved wf True s (s.setSsq { s.ssq with stroke := some (storeSample tag p st) }) :=
      .ssq (.of_same rfl rfl rfl rfl rfl)
    exact .branch (fun h => .after (completeSettle_moved _ h.2 up) stored) fun _ => stored

theorem fireTrigger_moved (tag : Tag) {s : State} (up : s.srs.life = .up) : Moved wf True s (fireTrigger tag s) := by
  simp only [fireTrigger]
  split
  · exact .after (deliverSample_moved _ _ up) (.msq s _)
  · exact .msq s _

/-- A sample set other than the END one completes no stroke (R72, R123). -/
theorem deliverSample_early_moved {tag : Tag} (ht : tag ≠ .finish) (p : Sample) (s : State) :
    Moved wf cal s (deliverSample tag p s) := by
  unfold deliverSample
  split
  · exact .refl s
  · exact .branch (fun h => absurd h.1 ht) fun _ => .ssq (.of_same rfl rfl rfl rfl rfl)

theorem fireTrigger_early_moved {tag : Tag} (ht : tag ≠ .finish) (s : State) : Moved wf cal s (fireTrigger tag s) := by
  simp only [fireTrigger]
  split
  · exact .after (deliverSample_early_moved ht _ _) (.msq s _)
  · exact .msq s _

/-- A stroke starts from a phase in which the release valve is off (R65). -/
theorem startStroke_moved (k : StrokeKind) (a : Option Int) {s : State} (hp : s.ssq.phase ≠ .release) :
    Moved wf cal s (startStroke k a s) :=
  .after (fireTrigger_early_moved (by simp) _) (.ssq (.of_phase rfl rfl fun v => ⟨fun _ => .inl rfl,
    fun hr => absurd (v.release hr) hp⟩))

theorem liftTest_moved (s : State) : Moved wf cal s (liftTest s) := by
  unfold liftTest
  split
  · next hp _ =>
    split
    · split
      · exact .ssq (leaveLift_keeps _ _ (by simp [hp]))
      · exact .refl s
    · exact .refl s
  · exact .refl s

theorem enterLift_moved {s : State} (hp : s.ssq.phase = .pressurize) : Moved wf cal s (enterLift s) :=
  .after (liftTest_moved _) (.ssq (.of_phase rfl rfl fun k => ⟨fun _ => .inr rfl,
    fun hr => absurd (k.release hr) (by simp [hp])⟩))

theorem enterSettle_moved (f : Stroke → Stroke) {s : State} (hp : s.ssq.phase = .release) (up : s.srs.life = .up) :
    Moved wf True s (enterSettle f s) :=
  .after (fireTrigger_moved .finish up) (.ssq (.of_phase rfl rfl fun k =>
    ⟨fun h => absurd h (by simp [k.lift_off (by simp [hp]) (by simp [hp])]), nofun⟩))

theorem releaseTest_moved {s : State} (up : s.srs.life = .up) : Moved wf True s (releaseTest s) :=
  .branch (fun h => enterSettle_moved _ h.1 up) fun _ => .refl s

theorem jackTest_moved {s : State} (up : s.srs.life = .up) : Moved wf True s (jackTest s) := by
  unfold jackTest
  split
  · exact liftTest_moved s
  · exact releaseTest_moved up
  · exact .refl s

theorem overpressureTest_moved (v : Int) (s : State) : Moved wf cal s (overpressureTest v s) :=
  .branch (fun _ => .after (addSafe_moved _ _) (.ssq (.of_same rfl rfl rfl rfl rfl)))
    fun _ => .ssq (.of_same rfl rfl rfl rfl rfl)

theorem pressurePhase_moved (v : Int) {s : State} (up : s.srs.life = .up) : Moved wf True s (pressurePhase v s) := by
  unfold pressurePhase
  split
  · next hp => exact .branch (fun _ => enterLift_moved hp) fun _ => .refl s
  · exact releaseTest_moved up
  · exact .refl s

theorem fillTest_moved (s : State) : Moved wf cal s (fillTest s) := by
  unfold fillTest
  split
  · exact testDry_moved s
  · exact .branch (fun _ => setPour_moved _ s) fun _ => .refl s
  · exact .branch (fun _ => endPour_moved _ s) fun _ => .refl s
  · exact .refl s

theorem senseTest_moved (s : State) : Moved wf cal s (senseTest s) :=
  .branch (fun _ => .refl s) fun _ =>
    .branch (fun _ => .after (addHold_moved _ _) (.msq s _)) fun _ => .after (removeHold_moved _ _) (.msq s _)

theorem announceResult_moved (c : Channel) (v : Int) {s : State} (up : s.srs.life = .up) :
    Moved wf True s (announceResult c v s) := by
  unfold announceResult
  split
  case h_5 => exact .after (overpressureTest_moved v _) (pressurePhase_moved v up)
  case h_6 => exact .after (fillTest_moved _) (.lco (fillReading_keeps _ _ _ _))
  case h_7 => exact .refl s
  all_goals exact jackTest_moved up

theorem announceChange_moved (c : Channel) {s : State} (up : s.srs.life = .up) : Moved wf True s (announceChange c s) := by
  unfold announceChange
  split
  case h_5 => exact .after (senseTest_moved _) (releaseTest_moved up)
  case h_6 => exact reportBlock_moved s
  case h_7 => exact .refl s
  all_goals exact .after (senseTest_moved _) (jackTest_moved up)

theorem announce_moved (c : Channel) (raw : Nat) (e : ChanEntry) {s : State} (up : s.srs.life = .up) :
    Moved wf True s (announce c raw e s) := by
  have told : Moved wf True s (if announcesGood c raw e then announceResult c (scaledValue c raw) s else s) :=
    .branch (fun _ => announceResult_moved c _ up) fun _ => .refl s
  exact .branch (fun _ => .after (announceChange_moved c (told.up up)) told) fun _ => told

theorem finishChain_moved {s : State} (up : s.srs.life = .up) : Moved wf True s (finishChain s) := by
  unfold finishChain
  split
  · exact .after (.msq _ _) (deliverSample_moved _ _ up)
  · exact .refl s

theorem completeConversion_moved (raw : Nat) {s : State} (up : s.srs.life = .up) : Moved wf True s (completeConversion raw s) := by
  have told := announce_moved (wf := wf) (channelInFlight s.msq) raw (entryOf s.msq.table (channelInFlight s.msq))
    (s := s.setMsq (convertMsq raw s.msq)) up
  exact .after (finishChain_moved (told.up up)) (.after told (.msq s _))

end Sys2Proof.Machine
end

section
/-! The commands as chains of moves: orders, posts and inputs, times. -/

namespace Sys2Proof.Machine

variable {wf cal : Prop}

theorem up_of_blocksRun {s : State} (h : blocksRun s = true) : s.srs.life = .up := by
  simp only [blocksRun, Bool.and_eq_true, decide_eq_true_eq] at h
  exact h.1

theorem up_of_lineRuns {s : State} (h : lineRuns s = true) : s.srs.life = .up := of_decide_eq_true h

theorem Moved.ldr (s : State) (x : Ldr) : Moved wf cal s (s.setLdr x) := (Move.ldr x).moved

/-! ### How an order is taken (R177) -/

/-- An offered order's post is taken from the FIFO of a running node (R163, R177). -/
theorem offered_moved {sender target : Nat} {code : Byte} {args : List Byte} {s s1 : State}
    (h : offered sender target code args s = some s1) : Moved wf cal s s1 ∧ s1.srs.life = .up := by
  unfold offered at h
  split at h
  · next hc =>
    obtain ⟨l, hl, rfl⟩ := Option.map_eq_some_iff.1 h
    exact ⟨.lif (takenFrom_keeps hl), up_of_blocksRun hc.1⟩
  · cases h

theorem endAmend_moved (code : Byte) (s : State) : Moved wf cal s (endAmend code s) :=
  .branch (fun _ => .refl s) fun _ => .ors s _

theorem deliverReply_moved (sender : Nat) (code : Byte) (a : Answer) : Moved wf cal a.state (deliverReply sender code a) := by
  unfold deliverReply
  split
  · exact sendReply_moved _ _ _ _ _
  · exact .refl _

theorem answerOrder_moved (sender : Nat) (code : Byte) {act : State → Answer}
    (hact : ∀ x : State, x.srs.life = .up → Moved wf cal x (act x).state) {s : State} (up : s.srs.life = .up) :
    Moved wf cal s (answerOrder sender code act s) := by
  have ended : Moved wf cal s (endAmend code s) := endAmend_moved code s
  refine .after (deliverReply_moved _ _ _) ?_
  split
  · exact ended
  · exact .after (hact _ (ended.up up)) ended

/-- A command that stands for an order moves the node as its two rules do. -/
theorem takeCommand_moved (i : Instr) {ring : State → State} {act : State → Answer}
    (hring : ∀ x : State, x.srs.life = .up → Moved wf cal x (ring x))
    (hact : ∀ x : State, x.srs.life = .up → Moved wf cal x (act x).state) (s : State) : Moved wf cal s (takeCommand i ring act s) := by
  unfold takeCommand
  split
  · next sender target code args _ =>
    unfold takeOrder
    split
    · exact .refl s
    · next s1 h1 =>
      obtain ⟨taken, up⟩ := offered_moved h1
      refine .branch (fun _ => .branch (fun _ => taken) fun _ => ?_) fun _ => ?_
      · exact .after (hring _ up) taken
      · exact .after (answerOrder_moved sender code hact up) taken
  · exact .refl s

/-- An order that is taken addressed only. -/
theorem takeAddressed_moved (i : Instr) {act : State → Answer}
    (hact : ∀ x : State, x.srs.life = .up → Moved wf cal x (act x).state) (s : State) :
    Moved wf cal s (takeCommand i ignoreRing act s) :=
  takeCommand_moved i (fun x _ => .refl x) hact s

/-! ### The orders' own rules -/

theorem climbTaken_moved (s : State) : Moved wf cal s (climbTaken s) :=
  .after (afterCauses_moved _ _) (.mct (.of_same rfl id))

theorem climbOrder_moved (s : State) : Moved wf cal s (climbOrder s).state := by
  unfold climbOrder
  split
  · exact .refl s
  · split
    · exact .refl s
    · split
      · exact .refl s
      · exact climbTaken_moved s
  · exact climbTaken_moved s

theorem setupOrder_moved (s : State) : Moved wf cal s (setupOrder s).state := by
  unfold setupOrder
  split
  · split
    · exact .refl s
    · exact .after (afterCauses_moved _ _) (.mct (.of_same rfl id))
  · exact .refl s

theorem freeGate_moved (s : State) : Moved wf cal s (freeGate s) :=
  .branch (fun _ => .after (reportBlock_moved _) (enterClosed_moved s)) fun _ => .refl s

theorem clearSteps_moved (s : State) : Moved wf cal s (clearSteps s) :=
  .after (.msq _ _) (.after (freeGate_moved _) (.mct ⟨fun _ => Nat.zero_le _, id⟩))

theorem clearTaken_moved (s : State) : Moved wf cal s (clearTaken s) :=
  .branch (fun _ => .after (reduceSafe_moved id) (clearSteps_moved s)) fun _ => clearSteps_moved s

theorem clearOrder_moved (s : State) : Moved wf cal s (clearOrder s).state := by
  simp only [clearOrder]
  split
  · exact clearTaken_moved s
  · exact clearTaken_moved s

theorem trimTo_moved (t : Int) (s : State) : Moved wf cal s (trimTo t s).state := .cpl fun _ => limitTrim_range t

theorem heightSetOrder_moved (v : BitVec 24) (s : State) : Moved wf cal s (heightSetOrder v s).state := by
  unfold heightSetOrder
  split
  · exact .refl s
  · split
    · exact .refl s
    · exact frameShiftTo_moved _ _ s

theorem heightAdoptOrder_moved (s : State) : Moved wf cal s (heightAdoptOrder s).state := by
  unfold heightAdoptOrder
  split
  · exact .refl s
  · split
    · exact frameShiftTo_moved _ _ s
    · exact .refl s

theorem planeTo_moved (p : Option Int) (s : State) : Moved wf cal s (planeTo p s) := .ssq (.of_same rfl rfl rfl rfl rfl)

theorem planeSetOrder_moved (v : BitVec 24) (s : State) : Moved wf cal s (planeSetOrder v s).state := by
  unfold planeSetOrder
  split
  · exact .refl s
  · exact planeTo_moved _ s

theorem windowOrder_moved (collection first last : Byte) (s : State) : Moved wf cal s (windowOrder collection first last s).state := by
  unfold windowOrder
  split
  · exact .refl s
  · split
    · exact .refl s
    · exact .ors s _

theorem readOrder_moved (part : Byte) (s : State) : Moved wf cal s (readOrder part s).state := by
  unfold readOrder
  split
  · exact .refl s
  · split
    · exact .refl s
    · split
      · exact .after (.freeCount _ _) (.ors s _)
      · exact .ors s _

theorem amendBeginOrder_moved (s : State) : Moved wf cal s (amendBeginOrder s).state := by
  unfold amendBeginOrder
  split
  · exact .refl s
  · split
    · exact .refl s
    · exact .ors s _

theorem amendAt_moved (k : Cursor) (v : Nat) (s : State) : Moved wf cal s (amendAt k v s).state := by
  unfold amendAt
  split
  · exact .refl s
  · exact .refl s
  · next h => exact .after (.ors _ _) (.lco (amendLayer_keeps h))

theorem amendOrder_moved (m : BitVec 24) (s : State) : Moved wf cal s (amendOrder m s).state := by
  unfold amendOrder
  split
  · exact .refl s
  · split
    · exact .refl s
    · split
      · exact .ors s _
      · exact amendAt_moved _ _ s

theorem settingOrder_moved (field : Byte) (v : BitVec 32) (s : State) : Moved wf cal s (settingOrder field v s).state := by
  unfold settingOrder
  split
  · exact .refl s
  · split
    · exact .srs (.of_same rfl rfl rfl ⟨rfl, rfl, rfl⟩)
    · exact .refl s

theorem defaultsOrder_moved (s : State) : Moved wf cal s (defaultsOrder s).state := by
  unfold defaultsOrder
  split
  · exact .refl s
  · exact .srs (.of_same rfl rfl rfl ⟨rfl, rfl, rfl⟩)

theorem storeOrder_moved (sender : Nat) {s : State} (up : s.srs.life = .up) : Moved wf cal s (storeOrder sender s).state := by
  unfold storeOrder
  split
  · exact .refl s
  · split
    · exact .after (.srs (askWrite_moves _ up)) (.ors s _)
    · exact .refl s

theorem calibrateOrder_moved (s : State) : Moved wf cal s (calibrateOrder s).state := by
  unfold calibrateOrder
  split
  · exact .refl s
  · split
    · exact .refl s
    · split
      · exact .refl s
      · next h => exact startStroke_moved _ _ (by simp [not_not.1 h])

theorem restartTaken_moved (s : State) : Moved wf cal s (restartTaken s) :=
  .after (Move.save true).moved (.after (.srs (.of_same rfl rfl rfl ⟨rfl, rfl, rfl⟩)) (.ors s _))

theorem restartOrder_moved (s : State) : Moved wf cal s (restartOrder s).state := by
  unfold restartOrder
  split
  · exact .refl s
  · exact restartTaken_moved s

theorem statusOrder_moved (page : Byte) (s : State) : Moved wf cal s (statusOrder page s).state := by
  unfold statusOrder
  split
  · exact .freeCount s _
  · exact .refl s

/-! ### The peer view (R29 to R39) -/

theorem takePost_moved {sender : Nat} {body : PostBody} {s s1 : State} (h : takePost sender body s = some s1) :
    Moved wf cal s s1 ∧ sender ≠ ownStation s1 := by
  unfold takePost at h
  split at h
  · next hc =>
    obtain ⟨l, hl, rfl⟩ := Option.map_eq_some_iff.1 h
    exact ⟨.lif (takenFrom_keeps hl), hc.2⟩
  · cases h

/-- An entry of the table replaced by one of its station with the sector and height in their ranges. -/
theorem setPeers_moved {e e' : Peer} {s : State} (he : e ∈ s.pvw.peers) (hs : e'.station = e.station)
    (hr : wf → PeerInRange (ownStation s) (ringOf s.srs.active) e → PeerInRange (ownStation s) (ringOf s.srs.active) e') :
    Moved wf cal s (setPeers (putPeer e' s.pvw.peers) s) :=
  .pvw (putPeer_keeps he hs hr)

theorem updatePeer_moved {e e' : Peer} {s : State} (he : e ∈ s.pvw.peers) (hs : e'.station = e.station)
    (hr : wf → PeerInRange (ownStation s) (ringOf s.srs.active) e → PeerInRange (ownStation s) (ringOf s.srs.active) e') :
    Moved wf cal s (updatePeer e e' s) :=
  .after (signalFeed_moved _ _ _) (.after (retestClash_moved _) (setPeers_moved he hs hr))

theorem needIfOpen_frame (e : Peer) :
    (needIfOpen e).station = e.station ∧ (needIfOpen e).sector = e.sector ∧ (needIfOpen e).height = e.height := by
  unfold needIfOpen
  split <;> simp

/-- A LEVEL post gives the entry its sector and height, and leaves its station (R31). -/
theorem levelUpdate_frame (p : LevelPost) (e : Peer) :
    (levelUpdate p e).station = e.station ∧ (levelUpdate p e).sector = p.sector ∧ (levelUpdate p e).height = p.height := by
  obtain ⟨station, sector, height⟩ := needIfOpen_frame { levelFields p e with ageMs := 0 }
  simp only [levelUpdate]
  split
  · exact ⟨station, sector, height⟩
  · exact ⟨station, sector, height⟩

theorem LevelPost.fits_height {p : LevelPost} (h : p.fits = true) : 0 ≤ p.height ∧ p.height ≤ 1000000 := by
  simp only [LevelPost.fits, Bool.and_eq_true, decide_eq_true_eq] at h
  tauto

theorem takeLevel_moved {sender : Nat} {p : LevelPost} {s : State} (hw : wf → p.fits = true) (own : sender ≠ ownStation s) :
    Moved wf cal s (takeLevel sender p s) := by
  unfold takeLevel
  split
  · exact .refl s
  · next hc =>
    simp only [isPeerStation, decide_eq_false_iff_not, not_or, not_not, not_le] at hc
    obtain ⟨peer, ring⟩ := hc
    split
    · next e he =>
      obtain ⟨station, sector, height⟩ := levelUpdate_frame p e
      refine updatePeer_moved (findPeer_mem he).1 station fun w h => ?_
      have := LevelPost.fits_height (hw w)
      exact ⟨station ▸ h.1, sector ▸ ring, height ▸ this⟩
    · next he =>
      unfold createPeer
      refine .branch (fun hl => ?_) fun _ => .pvw (.of_peers rfl)
      refine .after (signalFeed_moved _ _ _) (.after (retestClash_moved _) (.pvw (insertPeer_keeps hl (findPeer_none he) fun w => ?_)))
      exact ⟨⟨peer.1, peer.2, own⟩, ring, LevelPost.fits_height (hw w)⟩

theorem peerOf_mem {sender : Nat} {s : State} {e : Peer} (h : peerOf sender s = some e) : e ∈ s.pvw.peers := by
  unfold peerOf at h
  split at h
  · exact (findPeer_mem h).1
  · cases h

theorem takeClaim_moved (sender : Nat) (p : ClaimPost) (s : State) : Moved wf cal s (takeClaim sender p s) := by
  unfold takeClaim
  split
  · next e he => exact .after (signalFeed_moved _ _ _) (setPeers_moved (peerOf_mem he) rfl fun _ h => ⟨h.station, h.sector, h.height⟩)
  · exact .refl s

theorem takeGate_moved (sender : Nat) (p : GatePost) (s : State) : Moved wf cal s (takeGate sender p s) := by
  unfold takeGate
  split
  · next e he => exact updatePeer_moved (peerOf_mem he) rfl fun _ h => ⟨h.station, h.sector, h.height⟩
  · exact .refl s

theorem takeHalt_moved (sender : Nat) (p : HaltPost) (s : State) : Moved wf cal s (takeHalt sender p s) :=
  .branch (fun _ => .after (addHold_moved _ _) (.mct (.of_same rfl id))) fun _ => .refl s

theorem dropPeer_moved (e : Peer) (s : State) : Moved wf cal s (dropPeer e s) := by
  refine .after (signalFeed_moved _ _ _) (.after (retestClash_moved _) (.pvw ⟨fun h => ?_, fun _ h => ?_⟩))
  · exact (removePeer_sublist _ _).length_le.trans h
  · exact h.sublist (removePeer_sublist _ _)

/-! ### The line (R155 to R173) -/

theorem muteEnded_moved (s : State) : Moved wf cal s (muteEnded s) := .branch (fun _ => removeHold_moved _ s) fun _ => .refl s

theorem leaveIfDue_moved (s : State) : Moved wf cal s (leaveIfDue s) :=
  .branch (fun _ => .after (muteEnded_moved _) (.lif (leaveMute_keeps _))) fun _ => .refl s

theorem identityReport_moved (v : Verdict) (s : State) : Moved wf cal s (identityReport v s) :=
  .branch (fun _ => identityClash_moved s) fun _ => .refl s

theorem hearPost_moved (v : Verdict) (s : State) : Moved wf cal s (hearPost v s) :=
  .branch
    (fun _ => .after (leaveIfDue_moved _) (.after (identityReport_moved _ _) (.lif (receiveLine_keeps _ _ _))))
    fun _ => .lif (trafficEnded_keeps _)

theorem claimFailed_moved (s : State) : Moved wf cal s (claimFailed s) := by
  unfold claimFailed
  split
  · exact .branch (fun _ => .after (wantOrDry_moved _) (.fct _ _)) fun _ => .refl s
  · exact .refl s

theorem claimSent_moved (n : Nat) (s : State) : Moved wf cal s (claimSent n s) := by
  unfold claimSent
  split
  · exact .branch (fun _ => .fct _ _) fun _ => .refl s
  · exact .refl s

theorem haltSent_moved (s : State) : Moved wf cal s (haltSent s) := by
  unfold haltSent
  split
  · exact .refl s
  · exact .mct (.of_same rfl id)

/-! ### The modes' inputs (R145, R146) -/

theorem estopOn_moved (s : State) : Moved wf cal s (estopOn s) :=
  .after (queueHalt_moved _ _) (.after (addHold_moved _ _) (.mct (.of_same rfl id)))

theorem keyTo_moved (pos : KeyPos) (s : State) : Moved wf cal s (keyTo pos s) := by
  have turned : Moved wf cal s (s.setMct { s.mct with key := pos }) := .mct (.of_same rfl id)
  exact .branch (fun _ => .after (addHold_moved _ _) turned) fun _ =>
    .branch (fun _ => .after (removeHold_moved _ _) turned) fun _ => .after (reportBlock_moved _) turned

/-! ### The feed's times (R94 to R109) -/

theorem jamGate_moved (s : State) : Moved wf cal s (jamGate s) := .after (reportBlock_moved _) (gateSet_moved _ _ s)

theorem decideClaim_moved (c : OwnClaim) (s : State) : Moved wf cal s (decideClaim c s) := by
  simp only [decideClaim]
  exact .branch (fun _ => .fct _ _) fun _ => .branch (fun _ => openPour_moved _ s) fun _ => enterBackoff_moved _ s

theorem pourSecond_moved (s : State) : Moved wf cal s (pourSecond s) := by
  have counted : Moved wf cal s (s.setFct { s.fct with pourSeconds := satAdd 65535 s.fct.pourSeconds 1 }) := .fct _ _
  exact .branch (fun _ => .after (endPour_moved _ _) counted) fun _ =>
    .branch (fun _ => .after (endPour_moved _ _) counted) fun _ => counted

/-! ### The planner's expiry (R47 to R60) -/

theorem applySpread_moved (x : Option Bool) (s : State) : Moved wf cal s (applySpread x s) := by
  unfold applySpread
  split
  · exact addSafe_moved _ s
  · exact removeSafe_moved (by decide) s
  · exact .refl s

theorem raiseBindNeed_ssq (s : State) : (raiseBindNeed s).ssq = s.ssq := by simp

/-- The spread check leaves an idle SSQ idle: a SAFE entry cuts no stroke there (R78). -/
theorem applySpread_phase (x : Option Bool) {s : State} (hp : s.ssq.phase = .idle) : (applySpread x s).ssq.phase = .idle := by
  unfold applySpread
  split
  · rw [(addSafe_calm .spread (by simp [hp]) (by simp [hp])).1, hp]
  · simp [hp]
  · exact hp

theorem handAllowance_moved (r : CplRecord) {s : State} (hp : s.ssq.phase = .idle) :
    Moved wf cal s (handAllowance r s) :=
  .branch (fun _ => startStroke_moved _ _ (by simp [hp])) fun _ => nullCycle_moved s

theorem computeExpiry_moved (r : CplRecord) {s : State} (hp : s.ssq.phase = .idle) :
    Moved wf cal s (computeExpiry r s) := by
  have recorded : Moved wf cal s (raiseBindNeed ((applySpread r.spreadExceeded s).setCpl
      { (applySpread r.spreadExceeded s).cpl with record := r })) :=
    .after (raiseBindNeed_moved _) (.after (.cpl id) (applySpread_moved _ s))
  refine .after (handAllowance_moved r ?_) recorded
  simp [applySpread_phase r.spreadExceeded hp]

/-! ### Steps 4 to 6 of a start, and a millisecond (R174, R196, R200) -/

theorem calibrationStep_moved (s : State) : Moved wf cal s (calibrationStep s) := by
  rcases calibrationStep_cases s with ⟨-, -, h⟩ | ⟨-, -, hc, h⟩ | ⟨-, h⟩ <;> rw [h]
  · exact .refl s
  · simp only [calibratesAtStart, Bool.and_eq_true, decide_eq_true_eq] at hc
    exact .after (startStroke_moved _ _ (by simp [hc.2])) (.srs (.of_same rfl rfl rfl ⟨rfl, rfl, rfl⟩))
  · exact .srs (.of_same rfl rfl rfl ⟨rfl, rfl, rfl⟩)

/-- A change of LIF's access and of its timers alone. -/
theorem joinLine_moved (s : State) : Moved wf cal s (joinLine s) := .after (.lif (.of_queue id rfl)) (requestLevel_moved s)

theorem startCycle_moved (s : State) : Moved wf cal s (startCycle s) := .branch (fun _ => .cpl id) fun _ => .refl s

theorem lifPassed_keeps (bitUs : Nat) (l : Lif) : LifKeeps l (lifPassed bitUs l) := by
  have timed : LifKeeps l (if l.transmitter.isSome then sendingPassed bitUs 1000 l else errorPassed bitUs (quietPassed 1000 l)) := by
    split
    · exact .of_queue id rfl
    · exact LifKeeps.trans (b := quietPassed 1000 l) (.of_queue id rfl) (errorPassed_keeps _ _)
  exact timed.trans (.of_queue id rfl)

/-- The timers of the blocks other than LIF, block by block. -/
theorem blocksPassed_eq (s : State) : blocksPassed s =
    ((((((s.setPvw { s.pvw with peers := s.pvw.peers.map peerPassed }).setLco
      { s.lco with tickMs := ticked 60000 s.lco.tickMs }).setCpl
      { s.cpl with cycleMs := s.cpl.cycleMs.map (ticked (s.srs.active.cyclePeriod * 1000).toNat) }).setFct
      (fctPassed s.srs.active s.fct)).setLdr (ldrPassed s.ldr)).setNowMs (s.nowMs + 1)) := rfl

theorem blocksPassed_moved (s : State) : Moved wf cal s (blocksPassed s) := by
  rw [blocksPassed_eq]
  exact .after (Move.nowMs _).moved (.after (.ldr _ _) (.after (.fct _ _) (.after (.cpl id)
    (.after (.lco (.of_same rfl rfl)) (.pvw (peerPassed_keeps _ _ _ _))))))

theorem srsPassed_keeps (r : Srs) : SrsKeeps cal r (srsPassed r) := by
  unfold srsPassed
  split
  · exact .of_same rfl rfl rfl ⟨rfl, rfl, rfl⟩
  · exact .refl r

/-- A millisecond passes (log entry 1). -/
theorem idleTick_moved (s : State) : Moved wf cal s (idleTick s) := by
  have timed : Moved wf cal s
      (if lineRuns s then (s.setLif (lifPassed (bitTimeUs s.srs.active) s.lif)).setSrs (srsPassed s.srs) else s) :=
    .branch (fun _ => .after (.srs (srsPassed_keeps _)) (.lif (lifPassed_keeps _ _))) fun _ => .refl s
  exact .branch (fun _ => .after (blocksPassed_moved _) timed) fun _ => timed

/-! ### Step 3 of a start, from the blocks as built (R200) -/

theorem strokeCredit_moved (a : Retained) (s : State) : Moved wf cal s (strokeCredit a s) :=
  .after (.ssq ⟨fun _ => joinHistory_length, fun k => ⟨k.lift, k.release⟩, id⟩) (frameShiftTo_moved _ _ s)

theorem creditStroke_moved (a : Option Retained) (s : State) : Moved wf cal s (creditStroke a s) := by
  unfold creditStroke
  split
  · exact .branch (fun _ => strokeCredit_moved _ s) fun _ => .refl s
  · exact .refl s

theorem startPosts_moved (s : State) : Moved wf cal s (startPosts s) :=
  .branch (fun _ => .after (queueHalt_moved _ _) (queueGate_moved _ s)) fun _ => queueGate_moved _ s

theorem endOfStep3_moved (identity : Bool) (s : State) : Moved wf cal s (endOfStep3 identity s) := by
  have tested : Moved wf cal s (senseTest (reportBlock s)) := .after (senseTest_moved _) (reportBlock_moved s)
  exact .branch (fun _ => .after (identityClash_moved _) tested) fun _ => tested

/-- What a start makes of the blocks it has built. -/
theorem startNode_moved (x : StartInputs) (heard : List StartEvent) (s : State) :
    Moved wf cal (builtState x heard s) (startNode x heard s) :=
  .after (endOfStep3_moved _ _) (.after (startPosts_moved _) (creditStroke_moved _ _))

end Sys2Proof.Machine
end

section
/-! What each command leaves: a chain of moves, but for the few that begin a post, stop the node, or start it. -/

namespace Sys2Proof.Machine

variable {wf cal : Prop}

/-! ### ACCESS (R165 to R167) -/

theorem quietReported_keeps (bitUs quiet : Nat) (l : Lif) : LifKeeps l (quietReported bitUs quiet l) := by
  unfold quietReported
  split
  · exact .refl l
  · exact LifKeeps.trans (b := { l with quietUs := max l.quietUs (quiet * bitUs) }) (.of_queue id rfl) (errorPassed_keeps _ _)

/-- ACCESS begins a post only where LIF may send; otherwise it takes the quiet time alone. -/
theorem accessLine_cases (own : Nat) (record : LevelPost) (bitUs quiet : Nat) (l : Lif) :
    LifKeeps l (accessLine own record bitUs quiet l) ∨
      (maySend l = true ∧ ∃ k, accessLine own record bitUs quiet l = beginPost own record bitUs k l) := by
  unfold accessLine
  split
  · next k _ =>
    split
    · next h => exact .inr ⟨h.1, k, rfl⟩
    · exact .inl (quietReported_keeps _ _ _)
  · exact .inl (quietReported_keeps _ _ _)

/-! ### What a command leaves -/

/-- What a command leaves of a state: a chain of moves; a post begun (R166); a chain after which a waiting RESTART may begin
(R201); what the supply's events leave (R198, R199); the moves of a start on the blocks it builds (R200). -/
inductive Leaves (wf cal : Prop) (c : Instr) (s : State) : State → Prop
  | moved {t : State} (h : Moved wf cal s t) : Leaves wf cal c s t
  | begins (k : TxKind) (h : maySend s.lif = true) :
      Leaves wf cal c s (s.setLif (beginPost (ownStation s) (ownRecord s) (bitTimeUs s.srs.active) k s.lif))
  | restarts {t : State} (h : Moved wf cal s t) : Leaves wf cal c s (tryRestart t)
  | powerFailed (holdUp : Bool) : Leaves wf cal c s (powerFailed holdUp s)
  | outage (n : Nat) : Leaves wf cal c s (s.setSrs { s.srs with outage := n })
  | lost : Leaves wf cal c s (s.setSrs { s.srs with area := none, areaValid := false, outage := 0 })
  | started {t : State} (x : StartInputs) (heard : List StartEvent) (hc : c = .start x heard) (down : s.srs.life ≠ .up)
      (h : Moved wf cal (builtState x heard s) t) : Leaves wf cal c s t

variable {c : Instr} {s : State}

/-- A guarded command is one where its guard holds, and nothing otherwise. -/
theorem Leaves.guard {p : Prop} [Decidable p] {a : State} (h : p → Moved wf cal s a) : Leaves wf cal c s (if p then a else s) :=
  .moved (.branch h fun _ => .refl s)

theorem replyReported_leaves {u : State} (h : Moved wf cal s u) :
    Moved wf cal s (replyReported u) ∨ ∃ t, Moved wf cal s t ∧ replyReported u = tryRestart t := by
  unfold replyReported
  split
  · have ready : Moved wf cal s (u.setSrs { u.srs with restartReady := true }) :=
      .after (.srs (.of_same rfl rfl rfl ⟨rfl, rfl, rfl⟩)) h
    exact .inr ⟨_, ready, rfl⟩
  · exact .inl h

/-- A REPLY reported sent or discarded (R188). -/
theorem Leaves.reply {u : State} (h : Moved wf cal s u) : Leaves wf cal c s (replyReported u) := by
  rcases replyReported_leaves h with h | ⟨t, h, e⟩
  · exact .moved h
  · rw [e]; exact .restarts h

/-- A RESTART that has begun stops every block. -/
theorem tryRestart_runs {u : State} (h : blocksRun (tryRestart u) = true) : tryRestart u = u := by
  rcases tryRestart_cases u with ⟨-, -, -, e⟩ | ⟨-, e⟩
  · rw [e] at h
    simp [blocksRun] at h
  · exact e

/-- The reports of MUTE to the blocks that run (R171). -/
theorem mutedBlocks_moved (l : Lif) (u : State) :
    Moved wf cal u (if blocksRun u then addHold .mute (if l.claimSlot.isSome then claimFailed u else u) else u) :=
  .branch (fun _ => .after (addHold_moved _ _) (.branch (fun _ => claimFailed_moved u) fun _ => .refl u)) fun _ => .refl u

/-- The reports of MUTE: where the REPLY it discards begins a waiting RESTART, no other block runs (R171, R188). -/
theorem muteReports_leaves (l : Lif) {u : State} (h : Moved wf cal s u) : Leaves wf cal c s (muteReports l u) := by
  have reported : ∀ v, Moved wf cal s v →
      Leaves wf cal c s (if blocksRun v then addHold .mute (if l.claimSlot.isSome then claimFailed v else v) else v) :=
    fun v hv => .moved (.after (mutedBlocks_moved l v) hv)
  unfold muteReports
  cases hr : l.replySlot with
  | none => exact reported u h
  | some x =>
    rcases replyReported_leaves h with hm | ⟨t, ht, e⟩
    · exact reported _ hm
    · simp only [Option.isSome_some, if_true, e]
      split
      · next hb =>
        rw [tryRestart_runs hb]
        exact .moved (.after (addHold_moved _ _) (.branch (fun _ => .after (claimFailed_moved _) ht) fun _ => ht))
      · exact .restarts ht

theorem afterGarble_leaves (own : Nat) {t : Transmission} (ht : s.lif.transmitter = some t) :
    Leaves wf cal c s (afterGarble (garbleLine own t s.lif) s) := by
  have kept := garble_keeps (own := own) ht
  unfold afterGarble
  split
  · next h96 => exact muteReports_leaves _ (.lif (by rwa [if_pos h96] at kept))
  · next h96 => exact .moved (.lif (by rwa [if_neg h96] at kept))

theorem reportSent_leaves (body : PostBody) {u : State} (h : Moved wf cal s u) : Leaves wf cal c s (reportSent body u) := by
  unfold reportSent
  split
  · exact .moved (.branch (fun _ => .after (claimSent_moved _ u) h) fun _ => h)
  · exact .moved (.branch (fun _ => .after (haltSent_moved u) h) fun _ => h)
  · exact .reply h
  · exact .moved h

theorem restartWithoutReply_leaves {u : State} (h : Moved wf cal s u) : Leaves wf cal c s (restartWithoutReply u) := by
  unfold restartWithoutReply
  split
  · have ready : Moved wf cal s (u.setSrs { u.srs with restartReady := true }) :=
      .after (.srs (.of_same rfl rfl rfl ⟨rfl, rfl, rfl⟩)) h
    exact .restarts ready
  · exact .moved h

theorem storeReported_moved (s : State) : Moved wf cal s (storeReported s) := by
  unfold storeReported
  split
  · exact .after (sendReply_moved _ _ _ _ _) (.ors s _)
  · exact .refl s

/-- The end of a write leaves the active settings, the area and the node's life, and the writes in order. -/
theorem writeCompleted_moves (w : BlockWrite) {r : Srs} (up : r.life = .up) : SrsKeeps cal r (writeCompleted w r) := by
  have same : (writeCompleted w r).active = r.active ∧ (writeCompleted w r).area = r.area ∧ (writeCompleted w r).life = r.life := by
    unfold writeCompleted
    split <;> simp [beginWrite]
  exact ⟨by rw [same.1], fun _ => same.1, same.2.1, same.2.2, fun _ => writeCompleted_keeps w up⟩

theorem writeDone_leaves (w : BlockWrite) (up : s.srs.life = .up) : Leaves wf cal c s (writeDone w s) := by
  have done : Moved wf cal s (s.setSrs (writeCompleted w s.srs)) := .srs (writeCompleted_moves w up)
  exact .restarts (.branch (fun _ => .after (storeReported_moved _) done) fun _ => done)

/-! ### Every command -/

theorem post_leaves {sender : Nat} {body : PostBody} {act : State → State}
    (hact : ∀ x : State, sender ≠ ownStation x → Moved wf cal x (act x)) :
    Leaves wf cal c s (match takePost sender body s with
      | some x => act x
      | none => s) := by
  split
  · next x hx =>
    obtain ⟨taken, other⟩ := takePost_moved hx
    exact .moved (.after (hact x other) taken)
  · exact .moved (.refl s)

/-- The commands at which a stroke can complete (R74): the END sample set of a chain in flight, or the one that answers a lost END
trigger. -/
def Completes : Instr → Prop
  | .conversionComplete _ => True
  | .releaseTimeout => True
  | _ => False

/-- What every command leaves. -/
theorem exec_leaves (c : Instr) (s : State) : ∃ t, exec c s = .next t ∧ Leaves (c.wellFormed = true) (Completes c) c s t := by
  cases c with
  | climb sender target =>
    exact ⟨_, rfl, .moved (takeCommand_moved _ (fun x _ => climbOrder_moved x) (fun x _ => climbOrder_moved x) s)⟩
  | hold sender target =>
    exact ⟨_, rfl, .moved (takeCommand_moved _ (fun x _ => addHold_moved _ x) (fun x _ => addHold_moved _ x) s)⟩
  | setup sender target => exact ⟨_, rfl, .moved (takeAddressed_moved _ (fun x _ => setupOrder_moved x) s)⟩
  | clear sender target => exact ⟨_, rfl, .moved (takeAddressed_moved _ (fun x _ => clearOrder_moved x) s)⟩
  | trimUp sender target => exact ⟨_, rfl, .moved (takeAddressed_moved _ (fun x _ => trimTo_moved _ x) s)⟩
  | trimDown sender target => exact ⟨_, rfl, .moved (takeAddressed_moved _ (fun x _ => trimTo_moved _ x) s)⟩
  | trimSet sender target value => exact ⟨_, rfl, .moved (takeAddressed_moved _ (fun x _ => trimTo_moved _ x) s)⟩
  | heightSet sender target value => exact ⟨_, rfl, .moved (takeAddressed_moved _ (fun x _ => heightSetOrder_moved _ x) s)⟩
  | heightAdopt sender target => exact ⟨_, rfl, .moved (takeAddressed_moved _ (fun x _ => heightAdoptOrder_moved x) s)⟩
  | planeSet sender target value =>
    exact ⟨_, rfl, .moved (takeCommand_moved _ (fun x _ => planeSetOrder_moved _ x) (fun x _ => planeSetOrder_moved _ x) s)⟩
  | planeWithdraw sender target =>
    exact ⟨_, rfl, .moved (takeCommand_moved _ (fun x _ => planeTo_moved _ x) (fun x _ => planeTo_moved _ x) s)⟩
  | window sender target collection first last =>
    exact ⟨_, rfl, .moved (takeAddressed_moved _ (fun x _ => windowOrder_moved _ _ _ x) s)⟩
  | read sender target part => exact ⟨_, rfl, .moved (takeAddressed_moved _ (fun x _ => readOrder_moved _ x) s)⟩
  | amendBegin sender target => exact ⟨_, rfl, .moved (takeAddressed_moved _ (fun x _ => amendBeginOrder_moved x) s)⟩
  | amend sender target maturity => exact ⟨_, rfl, .moved (takeAddressed_moved _ (fun x _ => amendOrder_moved _ x) s)⟩
  | setting sender target field value =>
    exact ⟨_, rfl, .moved (takeAddressed_moved _ (fun x _ => settingOrder_moved _ _ x) s)⟩
  | defaults sender target => exact ⟨_, rfl, .moved (takeAddressed_moved _ (fun x _ => defaultsOrder_moved x) s)⟩
  | store sender target => exact ⟨_, rfl, .moved (takeAddressed_moved _ (fun _ up => storeOrder_moved _ up) s)⟩
  | calibrate sender target => exact ⟨_, rfl, .moved (takeAddressed_moved _ (fun x _ => calibrateOrder_moved x) s)⟩
  | restart sender target =>
    refine ⟨_, rfl, ?_⟩
    split
    · exact restartWithoutReply_leaves (takeAddressed_moved _ (fun x _ => restartOrder_moved x) s)
    · exact .moved (.refl s)
  | status sender target page => exact ⟨_, rfl, .moved (takeAddressed_moved _ (fun x _ => statusOrder_moved _ x) s)⟩
  | orderInvalid sender target code args =>
    refine ⟨_, rfl, .moved ?_⟩
    split
    · exact .refl s
    · exact takeAddressed_moved _ (fun x _ => .refl x) s
  | orderWhileStoring sender target code args =>
    exact ⟨_, rfl, .guard fun _ => takeAddressed_moved _ (fun x _ => .refl x) s⟩
  | postReceived bytes => exact ⟨_, rfl, .guard fun _ => hearPost_moved _ s⟩
  | framingError quiet => exact ⟨_, rfl, .guard fun _ => .lif (framingErrorLine_keeps _ _ _)⟩
  | levelTaken sender post =>
    refine ⟨_, rfl, post_leaves fun x own => takeLevel_moved (fun w => ?_) own⟩
    simp only [Instr.wellFormed, Bool.and_eq_true] at w
    exact w.2
  | claimTaken sender post => exact ⟨_, rfl, post_leaves fun x _ => takeClaim_moved _ _ x⟩
  | gateTaken sender post => exact ⟨_, rfl, post_leaves fun x _ => takeGate_moved _ _ x⟩
  | haltTaken sender post => exact ⟨_, rfl, post_leaves fun x _ => takeHalt_moved _ _ x⟩
  | claimLapse station =>
    refine ⟨_, rfl, ?_⟩
    split
    · next e he =>
      exact .guard fun _ => .after (signalFeed_moved _ _ _)
        (setPeers_moved (findPeer_mem he).1 rfl fun _ h => ⟨h.station, h.sector, h.height⟩)
    · exact .moved (.refl s)
  | peerStale station =>
    refine ⟨_, rfl, ?_⟩
    split
    · next e he => exact .guard fun _ => setPeers_moved (findPeer_mem he).1 rfl fun _ h => ⟨h.station, h.sector, h.height⟩
    · exact .moved (.refl s)
  | peerDrop station =>
    refine ⟨_, rfl, ?_⟩
    split
    · exact .guard fun _ => dropPeer_moved _ s
    · exact .moved (.refl s)
  | access quiet =>
    refine ⟨_, rfl, ?_⟩
    split
    · rcases accessLine_cases (ownStation s) (ownRecord s) (bitTimeUs s.srs.active) quiet s.lif with h | ⟨h, k, e⟩
      · exact .moved (.lif h)
      · rw [e]; exact .begins k h
    · exact .moved (.refl s)
  | garble =>
    refine ⟨_, rfl, ?_⟩
    split
    · next t ht =>
      split
      · exact afterGarble_leaves _ ht
      · exact .moved (.refl s)
    · exact .moved (.refl s)
  | postSent =>
    refine ⟨_, rfl, ?_⟩
    split
    · split
      · exact reportSent_leaves _ (.lif (sentLine_keeps _ _))
      · exact .moved (.refl s)
    · exact .moved (.refl s)
  | muteLeave => exact ⟨_, rfl, .guard fun _ => leaveIfDue_moved s⟩
  | levelTimer => exact ⟨_, rfl, .guard fun _ => .after (requestLevel_moved _) (.lif (.of_queue id rfl))⟩
  | joinListenEnd =>
    exact ⟨_, rfl, .guard fun _ => .after (joinLine_moved _) (.after (startCycle_moved _)
      (.srs (.of_same rfl rfl rfl ⟨rfl, rfl, rfl⟩)))⟩
  | tick => exact ⟨_, rfl, .guard fun _ => .lco (tickColumn_keeps _ _ _ _ _ _ _)⟩
  | pourDurationCount => exact ⟨_, rfl, .guard fun _ => .lco (.of_same rfl rfl)⟩
  | cycleExpiry =>
    refine ⟨_, rfl, .guard fun _ => ?_⟩
    have restarted : Moved (Instr.cycleExpiry.wellFormed = true) False s (s.setCpl { s.cpl with cycleMs := some 0 }) := .cpl id
    exact .branch (fun hp => .after (computeExpiry_moved _ hp) restarted) fun _ => .after (.cpl id) restarted
  | rampPeriod => exact ⟨_, rfl, .guard fun _ => .ssq (rampSsq_keeps _)⟩
  | pressurizeTimeout => exact ⟨_, rfl, .guard fun h => .ssq (leavePressurize_keeps _ (by simp [h.2]))⟩
  | liftTimeout => exact ⟨_, rfl, .guard fun h => .ssq (leaveLift_keeps _ _ (by simp [h.2]))⟩
  | topLimitCapture =>
    refine ⟨_, rfl, .guard fun _ => .branch (fun hp => .ssq (leaveLift_keeps _ _ (by simp [hp]))) fun _ => ?_⟩
    exact .ssq (.of_same rfl rfl rfl rfl rfl)
  | topTrigger =>
    refine ⟨_, rfl, ?_⟩
    split
    · next st _ =>
      exact .guard fun _ => .after (fireTrigger_early_moved (by simp) _) (.ssq (.of_same rfl rfl rfl rfl rfl))
    · exact .moved (.refl s)
  | topdwellEnd => exact ⟨_, rfl, .guard fun h => .ssq (enterRelease_keeps _ h.2)⟩
  | releaseTimeout => exact ⟨_, rfl, .guard fun h => enterSettle_moved _ h.2 (up_of_blocksRun h.1)⟩
  | coilCheck coil isOpen =>
    refine ⟨_, rfl, .guard fun _ => ?_⟩
    have checked : Moved ((Instr.coilCheck coil isOpen).wellFormed = true) False s (s.setSsq (coilChecked coil isOpen s.ssq)) :=
      .ssq (coilChecked_keeps _ _ _)
    exact .branch (fun _ => .after (addSafe_moved _ _) checked) fun _ => checked
  | conversionComplete raw => exact ⟨_, rfl, .guard fun h => completeConversion_moved _ (up_of_blocksRun h)⟩
  | beamPresentChange on =>
    exact ⟨_, rfl, .moved (.branch (fun _ => .after (.msq _ _) (.pins s _)) fun _ => .pins s _)⟩
  | gateOpenLimit on =>
    exact ⟨_, rfl, .moved (.branch (fun _ => .after (enterOpened_moved _) (.pins s _)) fun _ => .pins s _)⟩
  | gateClosedLimit on =>
    exact ⟨_, rfl, .moved (.branch (fun _ => .after (enterClosed_moved _) (.pins s _)) fun _ => .pins s _)⟩
  | gateTravelTimeout => exact ⟨_, rfl, .guard fun _ => jamGate_moved s⟩
  | settleDecision =>
    refine ⟨_, rfl, ?_⟩
    split
    · exact .guard fun _ => decideClaim_moved _ s
    · exact .moved (.refl s)
  | backoffEnd => exact ⟨_, rfl, .guard fun _ => wantOrDry_moved s⟩
  | pourTimerSecond => exact ⟨_, rfl, .guard fun _ => pourSecond_moved s⟩
  | estopChange active =>
    exact ⟨_, rfl, .guard fun _ => .branch (fun _ => estopOn_moved s) fun _ => .mct (.of_same rfl id)⟩
  | keyChange contacts => exact ⟨_, rfl, .guard fun _ => keyTo_moved _ s⟩
  | storeWriteDone =>
    refine ⟨_, rfl, ?_⟩
    split
    · split
      · next up => exact writeDone_leaves _ up
      · exact .moved (.refl s)
    · exact .moved (.refl s)
  | powerFail holdUp => exact ⟨_, rfl, .powerFailed holdUp⟩
  | outageMinute =>
    refine ⟨_, rfl, ?_⟩
    split
    · exact .outage _
    · exact .moved (.refl s)
  | retentionLost =>
    refine ⟨_, rfl, ?_⟩
    split
    · exact .lost
    · exact .moved (.refl s)
  | start x heard =>
    refine ⟨_, rfl, ?_⟩
    split
    · exact .moved (.refl s)
    · next down => exact .started x heard rfl down (startNode_moved x heard s)
  | startCalibrationStep => exact ⟨_, rfl, .guard fun _ => calibrationStep_moved s⟩
  | blinkPhase fast => exact ⟨_, rfl, .guard fun _ => .ldr s _⟩
  | startBit quiet => exact ⟨_, rfl, .guard fun _ => .lif (startBitLine_keeps _ _ _)⟩

/-- A step's outcome is a state: what an idle millisecond or the command at the front of the queue leaves. -/
theorem exec_next {c : Instr} {s t : State} (h : exec c s = .next t) : Leaves (c.wellFormed = true) (Completes c) c s t := by
  obtain ⟨u, hu, left⟩ := exec_leaves c s
  cases Host.Outcome.next.inj (hu.symm.trans h)
  exact left

end Sys2Proof.Machine
end

section
/-! From the moves to the invariants: what every move, the supply's events and a start keep, every step keeps. -/

namespace Sys2Proof.Machine

/-- What the supply's events leave of SRS: the active settings, and the retention area but for its loss and its RESTART marking
(R198, R199, R201). -/
structure AreaKept (r r' : Srs) : Prop where
  active : r'.active = r.active
  area : r'.area = r.area ∨ r'.area = none ∨ r'.area = r.area.map fun a => { a with atRestart := false }

/-- A property of the state that every move keeps, where the command taken is well formed as far as the property asks (`w`); and
that the queue, a post begun, the supply's events and a start keep as well. -/
structure Kept (w : Prop) (I : State → Prop) : Prop where
  queue : ∀ (s : State) (q : List Instr), (∀ c ∈ q, c ∈ s.pending) → I s → I (s.setPending q)
  move : ∀ {wf cal : Prop} {s t : State}, (w → wf) → Move wf cal s t → I s → I t
  begins : ∀ (s : State) (k : TxKind), maySend s.lif = true → I s →
    I (s.setLif (beginPost (ownStation s) (ownRecord s) (bitTimeUs s.srs.active) k s.lif))
  supply : ∀ (s : State) (r : Srs), AreaKept s.srs r → I s → I (s.setSrs r)
  built : ∀ (x : StartInputs) (heard : List StartEvent) (s : State), I s → I (builtState x heard s)

variable {w wf cal : Prop} {I : State → Prop} {s t : State}

theorem Kept.moved (k : Kept w I) (hw : w → wf) (h : Moved wf cal s t) (i : I s) : I t := by
  induction h with
  | refl => exact i
  | tail _ h ih => exact k.move hw h ih

theorem stopOutputs_eq (s : State) : stopOutputs s =
    ((((s.setSsq { liftOff s.ssq with releaseOn := false }).setFct { s.fct with motor := .off }).setMsq
      { s.msq with chain := none, pendingTrigger := none }).setLco (savedColumn s)).setLdr { s.ldr with lit := false } := rfl

/-- Both valves off are in every phase (R90). -/
theorem stopOutputs_moved (s : State) : Moved wf cal s (stopOutputs s) := by
  rw [stopOutputs_eq]
  exact .after (.ldr _ _) (.after (.lco (endLayer_keeps _ _ _ _ _)) (.after (.msq _ _) (.after (.fct _ _)
    (.ssq (.of_phase rfl rfl fun _ => ⟨nofun, nofun⟩)))))

theorem Kept.stopNode (k : Kept w I) (i : I s) : I (stopNode s) := k.supply s _ ⟨rfl, .inl rfl⟩ i

theorem Kept.tearWrite (k : Kept w I) (i : I s) : I (tearWrite s) := by
  unfold Machine.tearWrite
  split
  · exact i
  · exact k.move (wf := w) (cal := False) id (.freeCount _) (k.supply s _ ⟨rfl, .inl rfl⟩ i)

theorem Kept.clearRestartMark (k : Kept w I) (i : I s) : I (clearRestartMark s) := k.supply s _ ⟨rfl, .inr (.inr rfl)⟩ i

theorem Kept.powerFailed (k : Kept w I) (holdUp : Bool) (i : I s) : I (powerFailed holdUp s) := by
  have unmarked : I (Machine.stopNode (Machine.tearWrite (Machine.clearRestartMark s))) :=
    k.stopNode (k.tearWrite (k.clearRestartMark i))
  unfold Machine.powerFailed
  split
  · exact i
  · exact unmarked
  · split
    · exact unmarked
    · split
      · exact k.stopNode (k.tearWrite (k.move (wf := w) (cal := False) id (.save false) i))
      · exact k.stopNode (k.tearWrite (k.supply _ _ ⟨rfl, .inl rfl⟩ (k.moved (wf := w) (cal := False) id (stopOutputs_moved s) i)))

theorem Kept.tryRestart (k : Kept w I) (i : I s) : I (tryRestart s) := by
  rcases tryRestart_cases s with ⟨-, -, -, e⟩ | ⟨-, e⟩ <;> rw [e]
  · exact k.move (wf := w) (cal := False) id (.ors _) (k.supply s _ ⟨rfl, .inl rfl⟩ i)
  · exact i

theorem Kept.leaves (k : Kept w I) {c : Instr} (hw : w → wf) (h : Leaves wf cal c s t) (i : I s) : I t := by
  cases h with
  | moved h => exact k.moved hw h i
  | begins kind h => exact k.begins s kind h i
  | restarts h => exact k.tryRestart (k.moved hw h i)
  | powerFailed holdUp => exact k.powerFailed holdUp i
  | outage n => exact k.supply s _ ⟨rfl, .inl rfl⟩ i
  | lost => exact k.supply s _ ⟨rfl, .inr (.inl rfl)⟩ i
  | started x heard _ _ h => exact k.moved hw h (k.built x heard s i)

/-- A property so kept is an invariant of every step whose command is well formed as far as the property asks. -/
theorem Kept.step (k : Kept w I) (hw : w → ∀ c ∈ s.pending, c.wellFormed = true) (i : I s) (h : step s = .next t) : I t := by
  unfold Machine.step at h
  split at h
  · cases Host.Outcome.next.inj h
    exact k.moved (wf := w) (cal := False) id (idleTick_moved s) i
  · next c rest hq =>
    rw [hq] at hw
    exact k.leaves (fun hww => hw hww c (List.mem_cons_self)) (exec_next h)
      (k.queue s rest (fun d hd => by rw [hq]; exact List.mem_cons_of_mem _ hd) i)

/-! ### What the blocks begin with -/

/-- LIF as a start builds it: the posts heard in steps 1 to 3 move a line that begins empty (R174, R200). -/
theorem heardLif_keeps (own bitUs : Nat) (l : Lif) (e : StartEvent) : LifKeeps l (heardLif own bitUs l e) := by
  cases e with
  | startBit quiet => exact startBitLine_keeps _ _ _
  | post bytes => exact receiveLine_keeps _ _ _
  | framingError quiet => exact framingErrorLine_keeps _ _ _
  | _ => exact .refl l

theorem builtLif_keeps (own bitUs : Nat) (heard : List StartEvent) (l : Lif) : LifKeeps l (heard.foldl (heardLif own bitUs) l) := by
  induction heard generalizing l with
  | nil => exact .refl l
  | cons e rest ih => exact (heardLif_keeps own bitUs l e).trans (ih _)

theorem lifAtStart_bounds (own : Nat) : GarbleBounds (lifAtStart own) :=
  ⟨Nat.zero_le _, fun _ => by simp [lifAtStart], fun _ => rfl⟩

theorem lifAtStart_ages (own : Nat) : AgesOrdered (lifAtStart own) := by
  constructor <;> simp [lifAtStart]

/-- The retained state a start takes is what the area holds (R200). -/
theorem retainedState_area {r : Srs} {a : Retained} (h : retainedState r = some a) : r.area = some a := by
  unfold retainedState at h
  split at h
  · exact h
  · cases h

/-- The column of a start: none at a cold one, the retained one of the release pass otherwise (R20, R24). -/
theorem restoreColumn_length (own t0 tfb : Int) (minutes : Nat) (saved : List Layer) (clock : Nat) :
    (restoreColumn own t0 tfb minutes saved clock).column.length ≤ saved.length := by
  refine (releasePass_length _ _).trans ?_
  simp only
  split
  · simp
  · exact le_rfl

theorem restoredNextId_lt (column : List Layer) : restoredNextId column < 65536 := by
  unfold restoredNextId
  split
  · exact Nat.mod_lt _ (Nat.zero_lt_succ _)
  · exact Nat.zero_lt_succ _

theorem restoreColumn_order (own t0 tfb : Int) (minutes : Nat) {saved : List Layer} (clock : Nat) (h : ColumnInOrder saved) :
    LcoInOrder (restoreColumn own t0 tfb minutes saved clock) := by
  refine releasePass_order own ⟨?_, restoredNextId_lt saved⟩
  simp only
  split
  · exact (creditLayer_kept minutes t0 tfb).column h
  · exact h

/-! ### A post begun (R166) -/

/-- A post begun leaves its slot for the transmitter: the rest of LIF stays as it was. -/
theorem beginPost_frame (own : Nat) (record : LevelPost) (bitUs : Nat) (k : TxKind) (l : Lif) :
    (beginPost own record bitUs k l).fifo = l.fifo ∧ (beginPost own record bitUs k l).bucket = l.bucket ∧
      (beginPost own record bitUs k l).muted = l.muted ∧ (beginPost own record bitUs k l).silent = l.silent := by
  unfold beginPost
  split
  · cases k <;> simp [emptySlot]
  · simp

/-- The post in the transmitter has the age it had in its slot (R166). -/
theorem slotContent_stamp {l : Lif} (h : AgesOrdered l) {k : TxKind} {record : LevelPost} {body : PostBody} {stamp : Nat}
    (hc : slotContent k record l = some (body, stamp)) : stamp < l.nextStamp := by
  cases k <;> obtain ⟨x, hx, he⟩ := Option.map_eq_some_iff.1 hc <;> cases he
  · exact h.halt x hx
  · exact h.claim x hx
  · exact h.gate x hx
  · exact h.level x hx
  · exact h.reply x hx

theorem emptySlot_ages {l : Lif} (h : AgesOrdered l) (k : TxKind) : AgesOrdered (emptySlot k l) := by
  cases k with
  | halt => exact ⟨nofun, h.claim, h.gate, h.level, h.reply, h.transmitter⟩
  | claim => exact ⟨h.halt, nofun, h.gate, h.level, h.reply, h.transmitter⟩
  | gate => exact ⟨h.halt, h.claim, nofun, h.level, h.reply, h.transmitter⟩
  | level => exact ⟨h.halt, h.claim, h.gate, nofun, h.reply, h.transmitter⟩
  | reply => exact ⟨h.halt, h.claim, h.gate, h.level, nofun, h.transmitter⟩

theorem beginPost_ages (own : Nat) (record : LevelPost) (bitUs : Nat) (k : TxKind) {l : Lif} (h : AgesOrdered l) :
    AgesOrdered (beginPost own record bitUs k l) := by
  unfold beginPost
  split
  · next body stamp hc =>
    have e := emptySlot_ages h k
    have same : (emptySlot k l).nextStamp = l.nextStamp := by cases k <;> rfl
    refine ⟨e.halt, e.claim, e.gate, e.level, e.reply, ?_⟩
    rintro x hx
    cases hx
    exact same ▸ slotContent_stamp h hc
  · exact h

end Sys2Proof.Machine
end
section
/-! The invariants (O2, O5 to O9, O33, O34): each is kept by every move and by what is no move. -/

namespace Sys2Proof.Machine

/-! ### The capacities (R1, R27, R77, R86, R164) -/

theorem capacities_moved {wf cal : Prop} {s t : State} (h : Move wf cal s t) (k : Capacities s) : Capacities t := by
  cases h with
  | lif h => exact ⟨k.column, k.peers, k.history, k.window, h.fifo k.fifo, k.saved⟩
  | ssq h => exact ⟨k.column, k.peers, h.history k.history, k.window, k.fifo, k.saved⟩
  | lco h => exact ⟨h.size k.column, k.peers, k.history, k.window, k.fifo, k.saved⟩
  | pvw h => exact ⟨k.column, h.capacity k.peers, k.history, k.window, k.fifo, k.saved⟩
  | mct h => exact ⟨k.column, k.peers, k.history, h.window k.window, k.fifo, k.saved⟩
  | srs h => exact ⟨k.column, k.peers, k.history, k.window, k.fifo, fun a ha => k.saved a (h.area.symm.trans ha)⟩
  | save b =>
    have saved : (savedColumn s).column.length ≤ 12 := (endLayer_length _ _ _ _).trans k.column
    refine ⟨saved, k.peers, k.history, k.window, k.fifo, fun a ha => ?_⟩
    cases ha
    exact ⟨saved, k.history, k.window⟩
  | _ => exact ⟨k.column, k.peers, k.history, k.window, k.fifo, k.saved⟩

/-- What the area holds satisfies what the area held, the marking of a RESTART left aside. -/
theorem AreaKept.all {r r' : Srs} (h : AreaKept r r') {P : Retained → Prop}
    (mark : ∀ a, P a → P { a with atRestart := false }) (k : ∀ a, r.area = some a → P a) : ∀ a, r'.area = some a → P a := by
  intro a ha
  rcases h.area with e | e | e
  · exact k a (e.symm.trans ha)
  · cases e.symm.trans ha
  · obtain ⟨b, hb, rfl⟩ := Option.map_eq_some_iff.1 (e.symm.trans ha)
    exact mark b (k b hb)

theorem capacities_built (x : StartInputs) (heard : List StartEvent) {s : State} (k : Capacities s) :
    Capacities (builtState x heard s) where
  column := by
    show (startLco _ _ _).column.length ≤ 12
    unfold startLco
    split
    · next a ha => exact (restoreColumn_length _ _ _ _ _ _).trans (k.saved a (retainedState_area ha)).1
    · exact Nat.zero_le _
  peers := Nat.zero_le _
  history := by
    show (startSsq _).history.length ≤ 8
    unfold startSsq
    split
    · next a ha => exact (k.saved a (retainedState_area ha)).2.1
    · exact Nat.zero_le _
  window := by
    show (startMct _ _).window.length ≤ 10
    unfold startMct
    split
    · next a ha => exact (k.saved a (retainedState_area ha)).2.2
    · exact Nat.zero_le _
  fifo := (builtLif_keeps _ _ heard _).fifo (Nat.zero_le _)
  saved := k.saved

theorem capacities_kept : Kept False Capacities where
  queue _ _ _ k := ⟨k.column, k.peers, k.history, k.window, k.fifo, k.saved⟩
  move _ h := capacities_moved h
  begins s kind _ k := ⟨k.column, k.peers, k.history, k.window, by
    show (beginPost _ _ _ _ _).fifo.length ≤ 2
    rw [(beginPost_frame _ _ _ kind s.lif).1]; exact k.fifo, k.saved⟩
  supply _ _ h k := ⟨k.column, k.peers, k.history, k.window, k.fifo, h.all (fun _ => id) k.saved⟩
  built x heard _ k := capacities_built x heard k

/-- Settles O5: every operation on a collection keeps its capacity, and the area holds what the node held. -/
theorem capacitiesKept : Obligations.CapacitiesKept := fun _ _ k h => capacities_kept.step False.elim k h

/-! ### The garble bucket, MUTE and the ages (R166, R171) -/

/-- What holds of LIF alone is kept where LIF's operations, a post begun and a start keep it. -/
theorem lif_kept {P : Lif → Prop} (line : ∀ {l l'}, LifKeeps l l' → P l → P l')
    (begins : ∀ own record bitUs k l, maySend l = true → P l → P (beginPost own record bitUs k l))
    (start : ∀ own, P (lifAtStart own)) : Kept False fun s => P s.lif where
  queue _ _ _ k := k
  move _ h k := by
    cases h with
    | lif h => exact line h k
    | _ => exact k
  begins s kind h k := begins _ _ _ kind s.lif h k
  supply _ _ _ k := k
  built _ heard _ _ := line (builtLif_keeps _ _ heard _) (start _)

theorem maySend_unmuted {l : Lif} (h : maySend l = true) : l.muted = false ∧ l.silent = false ∧ l.transmitter = none := by
  simp only [maySend, Bool.and_eq_true, Bool.not_eq_true', Option.isNone_iff_eq_none] at h
  exact ⟨h.1.1.2, h.1.2, h.2⟩

theorem garbleBounds_kept : Kept False fun s => GarbleBounds s.lif :=
  lif_kept (fun h k => h.garble k)
    (fun own record bitUs kind l h k => by
      obtain ⟨-, bucket, muted, -⟩ := beginPost_frame own record bitUs kind l
      refine ⟨by rw [bucket]; exact k.bucket, fun _ => by rw [bucket]; exact k.free (maySend_unmuted h).1, fun hm => ?_⟩
      rw [muted, (maySend_unmuted h).1] at hm
      cases hm)
    lifAtStart_bounds

theorem ages_kept : Kept False fun s => AgesOrdered s.lif :=
  lif_kept (fun h k => h.ages k) (fun own record bitUs kind _ _ k => beginPost_ages own record bitUs kind k) lifAtStart_ages

/-- Settles O6: the bucket grows only at a garble, which in MUTE cannot come about; a stamp is given from the next-stamp count. -/
theorem garbleBoundsKept : Obligations.GarbleBoundsKept := fun _ _ h =>
  ⟨fun k => garbleBounds_kept.step False.elim k h, fun k => ages_kept.step False.elim k h⟩

/-! ### The valves (R66, R67, R93) -/

theorem valves_kept : Kept False fun s => ValvesInPhase s.ssq where
  queue _ _ _ k := k
  move _ h k := by
    cases h with
    | ssq h => exact h.valves k
    | save b => exact ⟨nofun, nofun⟩
    | _ => exact k
  begins _ _ _ k := k
  supply _ _ _ k := k
  built _ _ s _ := by
    show ValvesInPhase (startSsq _)
    unfold startSsq
    split <;> exact ⟨nofun, nofun⟩

/-- Settles O7: the phases give and withdraw the valves; the output stages follow from their definitions. -/
theorem valvesInPhaseKept : Obligations.ValvesInPhaseKept := by
  refine ⟨fun _ _ k h => valves_kept.step False.elim k h, fun s => ⟨?_, ?_, ?_, ?_, ?_, ?_⟩⟩
  · intro h; simp [liftCoilDuty, releaseCoilOn, h]
  · intro h; simp [liftCoilDuty, releaseCoilOn, h]
  · intro k
    refine ⟨fun h => k.lift ?_, fun h => k.release ?_⟩
    · by_contra hl; simp [liftCoilDuty, hl] at h
    · simp only [releaseCoilOn, Bool.and_eq_true] at h; exact h.1
  · simp [openDriveOn]
  · simp [closeDriveOn]
  · simp only [openDriveOn, closeDriveOn, Bool.and_eq_true, decide_eq_true_eq]
    rintro ⟨⟨h, -⟩, h'⟩
    cases h.symm.trans h'

/-! ### Own height and the trim (R61, R80) -/

theorem heightAndTrim_built (x : StartInputs) (heard : List StartEvent) {s : State} (k : HeightAndTrimRanges s) :
    HeightAndTrimRanges (builtState x heard s) where
  height := by
    show 0 ≤ (startSsq _).height ∧ (startSsq _).height ≤ 1000000
    unfold startSsq
    split
    · next a ha =>
      obtain ⟨h0, h1, -⟩ := k.saved a (retainedState_area ha)
      exact ⟨h0, h1⟩
    · simp [ssqCold]
  trim := by
    show -32 ≤ ((retainedState s.srs).map Retained.trim).getD 0 ∧ ((retainedState s.srs).map Retained.trim).getD 0 ≤ 31
    cases ha : retainedState s.srs with
    | none => simp
    | some a => exact (k.saved a (retainedState_area ha)).2.2
  saved := k.saved

theorem heightAndTrim_kept : Kept False HeightAndTrimRanges where
  queue _ _ _ k := ⟨k.height, k.trim, k.saved⟩
  move _ h k := by
    cases h with
    | ssq h => exact ⟨h.height k.height, k.trim, k.saved⟩
    | cpl h => exact ⟨k.height, h k.trim, k.saved⟩
    | srs h => exact ⟨k.height, k.trim, fun a ha => k.saved a (h.area.symm.trans ha)⟩
    | save b =>
      refine ⟨k.height, k.trim, fun a ha => ?_⟩
      cases ha
      exact ⟨k.height.1, k.height.2, k.trim⟩
    | _ => exact ⟨k.height, k.trim, k.saved⟩
  begins _ _ _ k := ⟨k.height, k.trim, k.saved⟩
  supply _ _ h k := ⟨k.height, k.trim, h.all (fun _ => id) k.saved⟩
  built x heard _ k := heightAndTrim_built x heard k

/-- Settles O8: every write of own height is limited to its range, and every trim order to the trim's. -/
theorem heightAndTrimKept : Obligations.HeightAndTrimKept := fun _ _ k h => heightAndTrim_kept.step False.elim k h

/-! ### The column (R1, R2, R21) -/

theorem ColumnKept.lco {s : State} (k : ColumnKept s) : LcoInOrder s.lco := ⟨k.order, k.counter⟩

/-- The column as the save leaves it, and as the area holds it (R21, R198). -/
theorem savedColumn_order {s : State} (k : ColumnKept s) :
    LcoInOrder (savedColumn s) ∧ ∀ r ∈ (savedColumn s).column, r.state ≠ .pouring := endLayer_order _ _ _ k.lco

theorem column_moved {wf cal : Prop} {s t : State} (h : Move wf cal s t) (k : ColumnKept s) : ColumnKept t := by
  cases h with
  | ssq h => exact ⟨k.order, k.counter, h.height k.height, k.saved⟩
  | lco h =>
    obtain ⟨order, counter⟩ := h.order k.height k.lco
    exact ⟨order, counter, k.height, k.saved⟩
  | srs h => exact ⟨k.order, k.counter, k.height, fun a ha => k.saved a (h.area.symm.trans ha)⟩
  | save b =>
    obtain ⟨⟨order, counter⟩, calm⟩ := savedColumn_order k
    refine ⟨order, counter, k.height, fun a ha => ?_⟩
    cases ha
    exact ⟨order, calm, k.height⟩
  | _ => exact ⟨k.order, k.counter, k.height, k.saved⟩

theorem column_built (x : StartInputs) (heard : List StartEvent) {s : State} (k : ColumnKept s) :
    ColumnKept (builtState x heard s) := by
  have built : LcoInOrder (startLco (loadedSettings s.srs) s.srs (retainedState s.srs)) := by
    unfold startLco
    split
    · next a ha => exact restoreColumn_order _ _ _ _ _ (k.saved a (retainedState_area ha)).1
    · exact ⟨columnInOrder_nil, by simp [lcoCold]⟩
  refine ⟨built.order, built.counter, ?_, k.saved⟩
  show 0 ≤ (startSsq _).height ∧ (startSsq _).height ≤ 1000000
  unfold startSsq
  split
  · next a ha => exact (k.saved a (retainedState_area ha)).2.2
  · simp [ssqCold]

theorem column_kept : Kept False ColumnKept where
  queue _ _ _ k := ⟨k.order, k.counter, k.height, k.saved⟩
  move _ h := column_moved h
  begins _ _ _ k := ⟨k.order, k.counter, k.height, k.saved⟩
  supply _ _ h k := ⟨k.order, k.counter, k.height, h.all (fun _ => id) k.saved⟩
  built x heard _ k := column_built x heard k

/-- Settles O33: each of LCO's operations keeps the column in order at an own height in its range. -/
theorem columnStaysInOrder : Obligations.ColumnStaysInOrder := fun _ _ k h => column_kept.step False.elim k h

/-! ### The peer table (R27, R28, R31, R37) -/

theorem PeersInOrder.table {s : State} (k : PeersInOrder s) : TableInOrder (ownStation s) (ringOf s.srs.active) s.pvw.peers :=
  ⟨k.order, k.distinct, k.stations, k.sectors, k.heights⟩

theorem TableInOrder.peers {s : State} (h : TableInOrder (ownStation s) (ringOf s.srs.active) s.pvw.peers)
    (commands : ∀ c ∈ s.pending, c.wellFormed = true) : PeersInOrder s :=
  ⟨h.order, h.distinct, h.stations, h.sectors, h.heights, commands⟩

theorem tableInOrder_nil (own ring : Nat) : TableInOrder own ring [] :=
  ⟨List.Pairwise.nil, List.nodup_nil, by simp, by simp, by simp⟩

theorem peers_moved {wf cal : Prop} (hw : wf) {s t : State} (h : Move wf cal s t) (k : PeersInOrder s) : PeersInOrder t := by
  cases h with
  | pvw h => exact (h.order hw k.table).peers k.commands
  | @srs r h =>
    refine TableInOrder.peers ?_ k.commands
    have station : stationOf r.active = stationOf s.srs.active := by rw [h.active]; rfl
    have ring : ringOf r.active = ringOf s.srs.active := by rw [h.active]; rfl
    show TableInOrder (stationOf r.active) (ringOf r.active) s.pvw.peers
    rw [station, ring]
    exact k.table
  | _ => exact ⟨k.order, k.distinct, k.stations, k.sectors, k.heights, k.commands⟩

theorem peers_kept : Kept True PeersInOrder where
  queue s q hq k := ⟨k.order, k.distinct, k.stations, k.sectors, k.heights, fun c hc => k.commands c (hq c hc)⟩
  move hw h := peers_moved (hw trivial) h
  begins _ _ _ k := ⟨k.order, k.distinct, k.stations, k.sectors, k.heights, k.commands⟩
  supply s r h k := by
    refine TableInOrder.peers ?_ k.commands
    show TableInOrder (stationOf r.active) (ringOf r.active) s.pvw.peers
    rw [h.active]
    exact k.table
  built _ _ _ k := (tableInOrder_nil _ _).peers k.commands

/-- Settles O34: an entry is put where sector order has it, and a well-formed LEVEL post carries a height in range. -/
theorem peersStayInOrder : Obligations.PeersStayInOrder := fun _ _ k h => peers_kept.step (fun _ => k.commands) k h

/-! ### The queue -/

theorem tryRestart_pending (s : State) : (tryRestart s).pending = s.pending := by
  rcases tryRestart_cases s with ⟨-, -, -, e⟩ | ⟨-, e⟩ <;> rw [e]
  rfl

theorem Leaves.pending {wf cal : Prop} {c : Instr} {s t : State} (h : Leaves wf cal c s t) : t.pending = s.pending := by
  cases h with
  | moved h => exact h.kept.2
  | restarts h => exact (tryRestart_pending _).trans h.kept.2
  | powerFailed holdUp => simp
  | started _ _ _ _ h => exact h.kept.2
  | _ => rfl

/-- Settles O2: every arm of the table gives a state, and no move touches the queue. -/
theorem everyCommandCompletes : Obligations.EveryCommandCompletes := fun c s => by
  obtain ⟨t, ht, left⟩ := exec_leaves c s
  exact ⟨t, ht, left.pending⟩

/-! ### The clash and the silence (R40, R137, R171, R173) -/

theorem Moved.clash {wf cal : Prop} {s t : State} (h : Moved wf cal s t) :
    (s.mct.safe.identityClash = true → t.mct.safe.identityClash = true) ∧ (s.lif.silent = true → t.lif.silent = true) ∧
      (s.lif.transmitter = none → t.lif.transmitter = none) := by
  induction h with
  | refl => exact ⟨id, id, id⟩
  | tail _ h ih =>
    obtain ⟨clash, silent, free⟩ := ih
    cases h with
    | lif h => exact ⟨clash, h.silent ∘ silent, h.free ∘ free⟩
    | mct h => exact ⟨h.clash ∘ clash, silent, free⟩
    | _ => exact ⟨clash, silent, free⟩

theorem tryRestart_frame_line (s : State) : (tryRestart s).mct = s.mct ∧ (tryRestart s).lif = s.lif := by
  rcases tryRestart_cases s with ⟨-, -, -, e⟩ | ⟨-, e⟩ <;> rw [e]
  · exact ⟨rfl, rfl⟩
  · exact ⟨rfl, rfl⟩

/-- Settles O10: no move takes IDENTITY_CLASH out of the SAFE set or ends the silence, and ACCESS alone begins a post. -/
theorem identityClashLasts : Obligations.IdentityClashLasts := by
  intro c s t h
  cases exec_next h with
  | moved h =>
    obtain ⟨clash, silent, free⟩ := h.clash
    exact ⟨fun _ => ⟨clash, silent⟩, fun _ => free⟩
  | begins kind hm =>
    obtain ⟨unmuted, heard, -⟩ := maySend_unmuted hm
    refine ⟨fun _ => ⟨id, fun hs => ?_⟩, fun hs => ?_⟩
    · exact absurd (heard.symm.trans hs) nofun
    · exact hs.elim (fun hs => absurd (heard.symm.trans hs) nofun) fun hs => absurd (unmuted.symm.trans hs) nofun
  | @restarts u left =>
    obtain ⟨clash, silent, free⟩ := left.clash
    obtain ⟨mct, lif⟩ := tryRestart_frame_line u
    rw [mct, lif]
    exact ⟨fun _ => ⟨clash, silent⟩, fun _ => free⟩
  | powerFailed holdUp => exact ⟨fun _ => by simp, fun _ => by simp⟩
  | outage n => exact ⟨fun _ => ⟨id, id⟩, fun _ => id⟩
  | lost => exact ⟨fun _ => ⟨id, id⟩, fun _ => id⟩
  | started x heard hc _ h =>
    exact ⟨fun hn => absurd hc (hn x heard), fun _ _ => h.clash.2.2 ((builtLif_keeps _ _ heard _).free rfl)⟩

/-! ### The state right after reset (log entry 4) -/

theorem reset_area (a : Retained) : State.reset.srs.area ≠ some a := by simp [State.reset, srsColdUnset]

theorem reset_writes : WritesInOrder State.reset.srs := by constructor <;> simp [State.reset, srsColdUnset]

theorem reset_valves : ValvesInPhase State.reset.ssq := by constructor <;> simp [State.reset, ssqCold]

/-- Settles O9: the blocks of a cold start hold nothing yet. -/
theorem resetMeetsInvariants : Obligations.ResetMeetsInvariants where
  left := ⟨Nat.zero_le _, Nat.zero_le _, Nat.zero_le _, Nat.zero_le _, Nat.zero_le _, fun a ha => absurd ha (reset_area a)⟩
  right := ⟨lifAtStart_bounds _, lifAtStart_ages _, reset_writes, reset_valves,
    ⟨by decide, by decide, fun a ha => absurd ha (reset_area a)⟩,
    ⟨columnInOrder_nil, by decide, by decide, fun a ha => absurd ha (reset_area a)⟩,
    (tableInOrder_nil _ _).peers fun c hc => absurd hc List.not_mem_nil⟩

end Sys2Proof.Machine
end

section
/-! The active settings (spec chapter 10, R191, R195, R197): what keeps the writes of the stored block in order, and what the
completion of a stroke makes of the full stroke. -/

namespace Sys2Proof.Machine

/-! ### The writes of the stored block (R195, R198, R201) -/

theorem Moved.writes {wf cal : Prop} {s t : State} (h : Moved wf cal s t) (k : WritesInOrder s.srs) : WritesInOrder t.srs := by
  induction h with
  | refl => exact k
  | tail _ h ih =>
    cases h with
    | srs h => exact h.writes ih
    | save b => exact ⟨ih.absent, ih.queue, ih.up⟩
    | _ => exact ih

/-- A node stopped tears the write in progress, so that none is left in a node that is not up. -/
theorem stopped_writes {s : State} (k : WritesInOrder s.srs) : WritesInOrder (stopNode (tearWrite s)).srs := by
  obtain ⟨torn, none⟩ := tearWrite_keeps k
  exact ⟨torn.absent, torn.queue, fun _ => none⟩

theorem powerFailed_writes (holdUp : Bool) {s : State} (k : WritesInOrder s.srs) : WritesInOrder (powerFailed holdUp s).srs := by
  have unmarked : WritesInOrder (clearRestartMark s).srs := ⟨k.absent, k.queue, k.up⟩
  unfold powerFailed
  split
  · exact k
  · exact stopped_writes unmarked
  · split
    · exact stopped_writes unmarked
    · split
      · exact stopped_writes ⟨k.absent, k.queue, k.up⟩
      · exact stopped_writes ⟨k.absent, k.queue, k.up⟩

theorem tryRestart_writes {s : State} (k : WritesInOrder s.srs) : WritesInOrder (tryRestart s).srs := by
  rcases tryRestart_cases s with ⟨-, -, hw, e⟩ | ⟨-, e⟩ <;> rw [e]
  · exact ⟨k.absent, k.queue, fun _ => hw⟩
  · exact k

theorem Leaves.writes {wf cal : Prop} {c : Instr} {s t : State} (h : Leaves wf cal c s t) (k : WritesInOrder s.srs) :
    WritesInOrder t.srs := by
  cases h with
  | moved h => exact h.writes k
  | begins kind h => exact k
  | restarts h => exact tryRestart_writes (h.writes k)
  | powerFailed holdUp => exact powerFailed_writes holdUp k
  | outage n => exact ⟨k.absent, k.queue, k.up⟩
  | lost => exact ⟨k.absent, k.queue, k.up⟩
  | started x heard _ down h => exact h.writes ⟨k.absent, k.queue, fun _ => k.up down⟩

/-! ### The active settings but for the full stroke -/

theorem Moved.active {wf cal : Prop} {s t : State} (h : Moved wf cal s t) :
    t.srs.active = { s.srs.active with fullStroke := t.srs.active.fullStroke } ∧ (¬ cal → t.srs.active = s.srs.active) := by
  induction h with
  | refl => exact ⟨rfl, fun _ => rfl⟩
  | tail _ h ih =>
    obtain ⟨active, fixed⟩ := ih
    cases h with
    | srs h => exact ⟨by rw [State.setSrs_srs, h.active, active], fun hc => (h.fixed hc).trans (fixed hc)⟩
    | save b => exact ⟨active, fixed⟩
    | _ => exact ⟨active, fixed⟩

theorem tryRestart_active (s : State) : (tryRestart s).srs.active = s.srs.active := by
  rcases tryRestart_cases s with ⟨-, -, -, e⟩ | ⟨-, e⟩ <;> rw [e]
  rfl

theorem tearWrite_active (s : State) : (tearWrite s).srs.active = s.srs.active := by
  unfold tearWrite
  split <;> rfl

theorem powerFailed_active (holdUp : Bool) (s : State) : (powerFailed holdUp s).srs.active = s.srs.active := by
  unfold powerFailed
  split
  · rfl
  · exact tearWrite_active _
  · split
    · exact tearWrite_active _
    · split
      · exact tearWrite_active _
      · exact tearWrite_active _

/-- A command that begins no start leaves the active settings but for the full stroke; and the full stroke as well, unless a stroke
can complete at it. -/
theorem Leaves.active {wf cal : Prop} {c : Instr} {s t : State} (h : Leaves wf cal c s t)
    (hc : ∀ x heard, c = .start x heard → s.srs.life = .up) :
    t.srs.active = { s.srs.active with fullStroke := t.srs.active.fullStroke } ∧ (¬ cal → t.srs.active = s.srs.active) := by
  have fixed : t.srs.active = s.srs.active →
      t.srs.active = { s.srs.active with fullStroke := t.srs.active.fullStroke } ∧ (¬ cal → t.srs.active = s.srs.active) :=
    fun e => ⟨by rw [e], fun _ => e⟩
  cases h with
  | moved h => exact h.active
  | begins kind h => exact fixed rfl
  | restarts h => rw [tryRestart_active]; exact h.active
  | powerFailed holdUp => exact fixed (powerFailed_active holdUp s)
  | outage n => exact fixed rfl
  | lost => exact fixed rfl
  | started x heard e down _ => exact absurd (hc x heard e) down

/-! ### The completion of a calibration stroke (R88, R197) -/

/-- An operation that completes no calibration with success: the active settings stay, a stroke in flight after it was in flight
before it, and with SSQ idle it leaves SSQ's phase and history and all of SRS. -/
structure Calm (s t : State) : Prop where
  active : t.srs.active = s.srs.active
  kind : t.ssq.stroke.map Stroke.kind = some .calibration → s.ssq.stroke.map Stroke.kind = some .calibration
  idle : s.ssq.phase = .idle → t.ssq.phase = .idle ∧ t.ssq.history = s.ssq.history ∧ t.srs = s.srs

/-- An operation that completes a calibration stroke with success. -/
structure Calibrated (s t : State) : Prop where
  kind : s.ssq.stroke.map Stroke.kind = some .calibration
  busy : s.ssq.phase ≠ .idle
  phase : t.ssq.phase = .idle
  cause : t.ssq.history.head?.map HistoryRec.cause = some .calibration
  pending : t.srs.calibrationPending = false
  measured : t.srs.active.fullStroke.isSome = true
  staged : t.srs.staged.fullStroke = t.srs.active.fullStroke

/-- Either of the two: a chain of such operations is one (`Ended.trans`), for a completed stroke leaves SSQ idle. -/
def Ended (s t : State) : Prop := Calm s t ∨ Calibrated s t

variable {s t u : State}

theorem Calm.refl (s : State) : Calm s s := ⟨rfl, id, fun h => ⟨h, rfl, rfl⟩⟩

theorem Calm.trans (h : Calm s t) (k : Calm t u) : Calm s u := by
  refine ⟨k.active.trans h.active, h.kind ∘ k.kind, fun hi => ?_⟩
  obtain ⟨p1, h1, r1⟩ := h.idle hi
  obtain ⟨p2, h2, r2⟩ := k.idle p1
  exact ⟨p2, h2.trans h1, r2.trans r1⟩

theorem Calm.ended (h : Calm s t) : Ended s t := .inl h

theorem Ended.trans (h : Ended s t) (k : Ended t u) : Ended s u := by
  rcases h with h | h
  · rcases k with k | k
    · exact .inl (h.trans k)
    · exact .inr ⟨h.kind k.kind, fun hi => k.busy (h.idle hi).1, k.phase, k.cause, k.pending, k.measured, k.staged⟩
  · rcases k with k | k
    · obtain ⟨phase, history, srs⟩ := k.idle h.phase
      exact .inr ⟨h.kind, h.busy, phase, history ▸ h.cause, srs ▸ h.pending, srs ▸ h.measured, srs ▸ h.staged⟩
    · exact absurd h.phase k.busy

/-- A chain told from its last operation backwards. -/
theorem Ended.after (k : Ended t u) (h : Ended s t) : Ended s u := h.trans k

theorem Ended.branch {c : Prop} [Decidable c] {a b : State} (ha : c → Ended s a) (hb : ¬ c → Ended s b) :
    Ended s (if c then a else b) := by
  split
  · next h => exact ha h
  · next h => exact hb h

/-- An operation that leaves SRS and, of SSQ, the phase, the history and the kind of the stroke in flight. -/
theorem Calm.of_same (srs : t.srs = s.srs) (stroke : t.ssq.stroke.map Stroke.kind = s.ssq.stroke.map Stroke.kind)
    (phase : t.ssq.phase = s.ssq.phase) (history : t.ssq.history = s.ssq.history) : Calm s t :=
  ⟨by rw [srs], fun h => stroke ▸ h, fun h => ⟨phase.trans h, history, srs⟩⟩

theorem Calm.of_ssq (srs : t.srs = s.srs) (ssq : t.ssq = s.ssq) : Calm s t :=
  .of_same srs (by rw [ssq]) (by rw [ssq]) (by rw [ssq])

/-- An operation on a stroke in flight. -/
theorem Calm.of_busy (srs : t.srs = s.srs) (busy : s.ssq.phase ≠ .idle)
    (stroke : t.ssq.stroke.map Stroke.kind = s.ssq.stroke.map Stroke.kind) : Calm s t :=
  ⟨by rw [srs], fun h => stroke ▸ h, fun h => absurd h busy⟩

/-- An update of the stroke in flight that leaves its kind. -/
theorem map_kind {f : Stroke → Stroke} (hf : ∀ st, (f st).kind = st.kind) (o : Option Stroke) :
    (o.map f).map Stroke.kind = o.map Stroke.kind := by
  cases o with
  | none => rfl
  | some st => exact congrArg some (hf st)

theorem leaveLift_calm (n : Nat) {f : Stroke → Stroke} (hf : ∀ st, (f st).kind = st.kind) (hp : s.ssq.phase ≠ .idle) :
    Calm s (s.setSsq (leaveLift n f s.ssq)) :=
  .of_busy rfl hp (by simp [leaveLift, Function.comp_def, hf])

theorem cutStroke_kept (s : State) : Calm s (cutStroke s) := by
  unfold cutStroke
  split
  · next hp => exact .of_busy rfl (by simp [hp]) (by simp [leavePressurize, withRiseEnd, Function.comp_def])
  · next hp => exact leaveLift_calm _ (fun _ => rfl) (by simp [hp])
  · exact .refl s

theorem addSafe_kept (c : SafeCause) (s : State) : Calm s (addSafe c s) := by
  unfold addSafe
  split
  · exact .refl s
  · refine Calm.trans (t := s.setMct { s.mct with safe := safePut s.mct.safe c true }) (.of_ssq rfl rfl) ?_
    split
    · exact (cutStroke_kept _).trans (.of_ssq (by simp) (by simp))
    · exact .refl _

theorem addHold_kept (c : HoldCause) (s : State) : Calm s (addHold c s) := by
  have cut : Calm (s.setMct { s.mct with hold := holdPut s.mct.hold c true })
      (if isCutCause c then cutStroke (s.setMct { s.mct with hold := holdPut s.mct.hold c true })
        else s.setMct { s.mct with hold := holdPut s.mct.hold c true }) := by
    split
    · exact cutStroke_kept _
    · exact .refl _
  refine Calm.trans (t := s.setMct { s.mct with hold := holdPut s.mct.hold c true }) (.of_ssq rfl rfl) (cut.trans ?_)
  exact .of_ssq (by simp [addHold]) (by simp [addHold])

theorem calibrationSuccess_fields (m : Int) (r : Srs) :
    (calibrationSuccess m r).active.fullStroke = some m ∧ (calibrationSuccess m r).staged.fullStroke = some m ∧
      (calibrationSuccess m r).calibrationPending = false := by
  simp only [calibrationSuccess]
  split
  · simp [askWrite_fields, calibratedBlock]
  · simp [calibratedBlock]

/-- The outcome of a calibration stroke at SRS: the full stroke measured, or nothing of the settings (R88, R197). -/
theorem calibrationOutcome_cases (st : Stroke) (r : Srs) :
    (calibratedStroke st = none ∧ (calibrationOutcome st r).active = r.active) ∨
      ((calibratedStroke st).isSome = true ∧ (calibrationOutcome st r).active.fullStroke = calibratedStroke st ∧
        (calibrationOutcome st r).staged.fullStroke = calibratedStroke st ∧
        (calibrationOutcome st r).calibrationPending = false) := by
  have listened : ∀ r1 : Srs, (calibrationOutcome st r) = (if r1.step = .calibrating then
      { r1 with step := .joinListen, joinMs := 0 } else r1) → (calibrationOutcome st r).active = r1.active ∧
        (calibrationOutcome st r).staged = r1.staged ∧ (calibrationOutcome st r).calibrationPending = r1.calibrationPending := by
    intro r1 e
    rw [e]
    split <;> simp
  cases hm : calibratedStroke st with
  | none =>
    obtain ⟨active, -⟩ := listened r (by simp only [calibrationOutcome, hm])
    exact .inl ⟨rfl, active⟩
  | some m =>
    obtain ⟨active, staged, pending⟩ := listened (calibrationSuccess m r) (by simp only [calibrationOutcome, hm])
    obtain ⟨h1, h2, h3⟩ := calibrationSuccess_fields m r
    exact .inr ⟨rfl, by rw [active, h1], by rw [staged, h2], by rw [pending, h3]⟩

/-- The stroke of a completion with the laser correction recorded differs in that alone (R74). -/
theorem settleLaser_stroke (st : Stroke) (s : State) :
    (settleLaser st s).1.kind = st.kind ∧ calibratedStroke (settleLaser st s).1 = calibratedStroke st := by
  unfold settleLaser
  split <;> exact ⟨rfl, rfl⟩

theorem completeSettle_srs (st : Stroke) (s : State) : (completeSettle st s).srs =
    if st.kind = .calibration then
      calibrationOutcome (settleLaser st (climbBy (climbedDistance s.srs.active.takeUp st) s)).1 s.srs
    else s.srs := by
  have kind := (settleLaser_stroke st (climbBy (climbedDistance s.srs.active.takeUp st) s)).1
  simp only [completeSettle, requestLevel, State.setMct_srs, State.setSsq_srs, State.setLif_srs, reportOutcome, kind]
  split <;> simp

/-- The newest history record after a completion has the end cause of the stroke (R74, R76, R86). -/
theorem completeSettle_cause (st : Stroke) (s : State) :
    (completeSettle st s).ssq.history.head?.map HistoryRec.cause =
      some (endCauseOf (settleLaser st (climbBy (climbedDistance s.srs.active.takeUp st) s)).1) := by
  simp [completeSettle, requestLevel, joinHistory, strokeRecord]

/-- The completion of SETTLE (R74). -/
theorem completeSettle_ended (st : Stroke) (hk : s.ssq.stroke.map Stroke.kind = some st.kind) (hp : s.ssq.phase = .settle) :
    Ended s (completeSettle st s) := by
  have busy : s.ssq.phase ≠ .idle := by simp [hp]
  obtain ⟨phase, none, -⟩ := completeSettle_kept st (s := s) (by simp [hp]) (by simp [hp])
  have calm : (completeSettle st s).srs.active = s.srs.active → Ended s (completeSettle st s) :=
    fun e => .inl ⟨e, fun h => absurd h (by simp [none]), fun h => absurd h busy⟩
  obtain ⟨kind, measured⟩ := settleLaser_stroke st (climbBy (climbedDistance s.srs.active.takeUp st) s)
  have srs := completeSettle_srs st s
  by_cases hc : st.kind = .calibration
  · rw [if_pos hc] at srs
    rcases calibrationOutcome_cases (settleLaser st (climbBy (climbedDistance s.srs.active.takeUp st) s)).1 s.srs with
      ⟨-, active⟩ | ⟨some, active, staged, pending⟩
    · exact calm (by rw [srs, active])
    · refine .inr ⟨by rw [hk, hc], busy, phase, ?_, by rw [srs, pending], by rw [srs, active, some], by rw [srs, active, staged]⟩
      rw [completeSettle_cause]
      simp only [endCauseOf, kind, hc, some, and_self, if_true]
  · rw [if_neg hc] at srs
    exact calm (by rw [srs])

theorem deliverSample_ended (tag : Tag) (p : Sample) (s : State) : Ended s (deliverSample tag p s) := by
  have kind : ∀ st, (storeSample tag p st).kind = st.kind := fun st => by cases tag <;> rfl
  unfold deliverSample
  split
  · exact (Calm.refl s).ended
  · next st hs =>
    have stored : Calm s (s.setSsq { s.ssq with stroke := some (storeSample tag p st) }) :=
      .of_same rfl (by simp [hs, kind]) rfl rfl
    exact .branch (fun h => .after (completeSettle_ended _ rfl h.2) stored.ended) fun _ => stored.ended

theorem fireTrigger_ended (tag : Tag) (s : State) : Ended s (fireTrigger tag s) := by
  have taken : Calm s (s.setMsq (triggerMsq tag s.msq)) := .of_ssq rfl rfl
  simp only [fireTrigger]
  split
  · exact .after (deliverSample_ended _ _ _) taken.ended
  · exact taken.ended

theorem enterSettle_ended {f : Stroke → Stroke} (hf : ∀ st, (f st).kind = st.kind) (hp : s.ssq.phase = .release) :
    Ended s (enterSettle f s) := by
  have entered : Calm s (s.setSsq { s.ssq with phase := .settle, releaseOn := false, stroke := s.ssq.stroke.map f }) :=
    .of_busy rfl (by simp [hp]) (map_kind hf s.ssq.stroke)
  exact .after (fireTrigger_ended _ _) entered.ended

theorem releaseTest_ended (s : State) : Ended s (releaseTest s) :=
  .branch (fun h => enterSettle_ended (fun _ => rfl) h.1) fun _ => (Calm.refl s).ended

/-- The tests of R70 leave the kind of the stroke they end. -/
theorem liftEnd_kind {c : Settings} {st : Stroke} {travels : List Int} {f : Stroke → Stroke}
    (h : liftEnd c st travels = some f) (x : Stroke) : (f x).kind = x.kind := by
  unfold liftEnd at h
  split at h
  · cases h; rfl
  · split at h
    · cases h; rfl
    · split at h
      · cases h; rfl
      · cases h

theorem liftTest_kept (s : State) : Calm s (liftTest s) := by
  unfold liftTest
  split
  · next hp _ =>
    split
    · split
      · next h => exact leaveLift_calm _ (liftEnd_kind h) (by simp [hp])
      · exact .refl s
    · exact .refl s
  · exact .refl s

theorem jackTest_ended (s : State) : Ended s (jackTest s) := by
  unfold jackTest
  split
  · exact (liftTest_kept s).ended
  · exact releaseTest_ended s
  · exact (Calm.refl s).ended

theorem pressurePhase_ended (v : Int) (s : State) : Ended s (pressurePhase v s) := by
  unfold pressurePhase
  split
  · next hp =>
    refine .branch (fun _ => ?_) fun _ => (Calm.refl s).ended
    exact .after (liftTest_kept _).ended (Calm.of_busy (by rfl) (by simp [hp]) (by simp [Function.comp_def])).ended
  · exact releaseTest_ended s
  · exact (Calm.refl s).ended

theorem overpressureTest_kept (v : Int) (s : State) : Calm s (overpressureTest v s) := by
  unfold overpressureTest
  split
  · exact Calm.trans (t := s.setSsq { s.ssq with overpressure := true }) (.of_same rfl rfl rfl rfl) (addSafe_kept _ _)
  · exact .of_same rfl rfl rfl rfl

theorem senseTest_kept (s : State) : Calm s (senseTest s) := by
  simp only [senseTest]
  split
  · exact .refl s
  · refine Calm.trans (t := s.setMsq { s.msq with sense := senseHolds s.msq.table }) (.of_ssq rfl rfl) ?_
    split
    · exact addHold_kept _ _
    · exact .of_ssq (by simp) (by simp)

theorem announceResult_ended (c : Channel) (v : Int) (s : State) : Ended s (announceResult c v s) := by
  unfold announceResult
  split
  case h_5 => exact .after (overpressureTest_kept v _).ended (pressurePhase_ended v s)
  case h_6 => exact (Calm.of_ssq (by simp) (by simp)).ended
  case h_7 => exact (Calm.refl s).ended
  all_goals exact jackTest_ended s

theorem announceChange_ended (c : Channel) (s : State) : Ended s (announceChange c s) := by
  unfold announceChange
  split
  case h_5 => exact .after (senseTest_kept _).ended (releaseTest_ended s)
  case h_6 => exact (Calm.of_ssq (by simp) (by simp)).ended
  case h_7 => exact (Calm.refl s).ended
  all_goals exact .after (senseTest_kept _).ended (jackTest_ended s)

theorem announce_ended (c : Channel) (raw : Nat) (e : ChanEntry) (s : State) : Ended s (announce c raw e s) := by
  have told : Ended s (if announcesGood c raw e then announceResult c (scaledValue c raw) s else s) :=
    .branch (fun _ => announceResult_ended c _ s) fun _ => (Calm.refl s).ended
  exact .branch (fun _ => .after (announceChange_ended c _) told) fun _ => told

theorem finishChain_ended (s : State) : Ended s (finishChain s) := by
  unfold finishChain
  split
  · exact (deliverSample_ended _ _ s).trans (Calm.of_ssq (by rfl) (by rfl)).ended
  · exact (Calm.refl s).ended

theorem completeConversion_ended (raw : Nat) (s : State) : Ended s (completeConversion raw s) := by
  have converted : Ended s (s.setMsq (convertMsq raw s.msq)) := (Calm.of_ssq (by rfl) (by rfl)).ended
  exact .after (finishChain_ended _) (.after (announce_ended _ _ _ _) converted)

/-- A command at which a stroke can complete. -/
theorem exec_ended {c : Instr} (hc : Completes c) (h : exec c s = .next t) : Ended s t := by
  cases c with
  | conversionComplete raw =>
    cases Host.Outcome.next.inj h
    exact .branch (fun _ => completeConversion_ended _ s) fun _ => (Calm.refl s).ended
  | releaseTimeout =>
    cases Host.Outcome.next.inj h
    exact .branch (fun h => enterSettle_ended (fun _ => rfl) h.2) fun _ => (Calm.refl s).ended
  | _ => exact hc.elim

/-- A command that begins no start changes the full stroke in force only at the completion of a calibration stroke with success. -/
theorem exec_fullStroke {c : Instr} (hc : ∀ x heard, c = .start x heard → s.srs.life = .up) (h : exec c s = .next t)
    (changed : t.srs.active.fullStroke ≠ s.srs.active.fullStroke) : Calibrated s t := by
  obtain ⟨-, fixed⟩ := (exec_next h).active hc
  by_cases ends : Completes c
  · exact (exec_ended ends h).resolve_left fun calm => changed (by rw [calm.active])
  · exact absurd (by rw [fixed ends]) changed

/-- Settles O11: a chain of moves leaves the active settings but for the full stroke, and the full stroke but at the END sample set of
a calibration stroke; each write that is asked for, done or torn leaves the writes in order. -/
theorem activeSettingsFixed : Obligations.ActiveSettingsFixed := by
  intro s t h
  unfold step at h
  split at h
  · cases Host.Outcome.next.inj h
    have idle : Moved False False s (idleTick s) := idleTick_moved s
    refine ⟨idle.writes, fun _ => ⟨idle.active.1, fun changed => absurd ?_ changed⟩⟩
    rw [idle.active.2 id]
  · next c rest hq =>
    refine ⟨fun k => (exec_next h).writes k, fun hs => ?_⟩
    have hc : ∀ x heard, c = .start x heard → (s.setPending rest).srs.life = .up := fun x heard e => hs x heard rest (by rw [hq, e])
    refine ⟨((exec_next h).active hc).1, fun changed => ?_⟩
    obtain ⟨kind, -, phase, cause, pending, measured, staged⟩ := exec_fullStroke hc h changed
    exact ⟨kind, phase, cause, pending, measured, staged⟩

end Sys2Proof.Machine
end

section
/-! The mode orders (spec chapter 7, R147 to R152): CLIMB, HOLD, SETUP and CLEAR at MCT. -/

namespace Sys2Proof.Machine

variable {s : State} {sender target : Nat} {code : Byte} {args : List Byte} {rest : List RxPost}

/-! ### How an addressed order is answered (R177) -/

/-- An addressed order that ends amend mode is answered by its own rule, in the state with its post taken. -/
theorem exec_addressed {i : Instr} {ring : State → State} {act : State → Answer}
    (he : exec i s = .next (takeCommand i ring act s)) (hp : orderParts i = some (sender, target, code, args))
    (hk : keepsAmend code = false) (h : AddressedOrder sender target code args rest s) (hs : NotStoring s) :
    exec i s = .next (deliverReply sender code (act (judged rest s))) := by
  rw [he, takeCommand_addressed ring act hp h, answerOrder_judged hk hs]

/-- READ and AMEND, which keep amend mode. -/
theorem exec_addressed_kept {i : Instr} {ring : State → State} {act : State → Answer}
    (he : exec i s = .next (takeCommand i ring act s)) (hp : orderParts i = some (sender, target, code, args))
    (hk : keepsAmend code = true) (h : AddressedOrder sender target code args rest s) (hs : NotStoring s) :
    exec i s = .next (deliverReply sender code (act (removed rest s))) := by
  rw [he, takeCommand_addressed ring act hp h, answerOrder_kept hk hs]

theorem deliverReply_refuse (sender : Nat) (code : Byte) (why : Reason) (u : State) :
    repliedTo sender code (.refused why) (refusedData code u) u (deliverReply sender code (refuse code why u)) := rfl

theorem deliverReply_done (sender : Nat) (code : Byte) (data : List Byte) (u : State) :
    repliedTo sender code .done data u (deliverReply sender code (doneWith data u)) := rfl

/-! ### What a mode order that is taken leaves (R135, R140) -/

/-- Out of CLIMB nothing that follows a change of MCT's state ends amend mode (R135). -/
theorem afterCauses_ors_of_mode {m : Mct} {s : State} (h : modeOf s.mct ≠ .climb) : (afterCauses m s).ors = s.ors := by
  have requested : (if decide (modeOf m ≠ modeOf s.mct) = true then requestLevel s else s).mct = s.mct := by split <;> simp
  simp only [afterCauses, requested, h, and_false, if_false]
  (repeat' split) <;> simp

theorem modeOf_after (m : Mct) (s : State) : modeOf (afterCauses m s).mct = modeOf s.mct := by
  rw [afterCauses_mct]
  rfl

/-- With SSQ idle the settling mark stays as it is (R140). -/
theorem settlesNow_idle (m m' : Mct) : settlesNow false m m' = false := rfl

/-- A change of MCT's state but for the settling mark, with all that follows it. -/
theorem afterCauses_stepFrame (x : State) {m : Mct} (hm : m.settling = x.mct.settling) :
    ModeStepFrame x (afterCauses x.mct (x.setMct m)) where
  stroke := by simp
  fifo := by simp
  settling := by
    rw [afterCauses_mct]
    refine ⟨fun h => ?_, fun h => ?_⟩
    · simp [hm, h]
    · simp [hm, h, settlesNow_idle]
  orders h := by
    rw [modeOf_after] at h
    rw [afterCauses_ors_of_mode h]
    rfl
  follows := by
    have changed : { (afterCauses x.mct (x.setMct m)).mct with settling := x.mct.settling } = m := by
      rw [afterCauses_mct, ← hm]
      rfl
    rw [changed]
    exact afterCauses_spec x.mct (x.setMct m)
  elsewhere := ⟨by simp, by simp, by simp, by simp, by simp, by simp, by simp, by simp⟩

/-! ### CLIMB (R147, R148) -/

theorem modeOf_safe_iff (m : Mct) : modeOf m = .safe ↔ m.safe ≠ noSafe := by
  unfold modeOf
  split
  · next h => simp [h]
  · next h =>
    split
    · simpa using h
    · split <;> simpa using h

/-- The mode of a node whose SAFE set is empty and whose base is RUNNING (R134). -/
theorem modeOf_running {m : Mct} (hs : m.safe = noSafe) (hb : m.base = .running) :
    modeOf m = if m.hold = noHold then .climb else .hold := by
  by_cases h : m.hold = noHold <;> simp [modeOf, hs, hb, h]

/-- The mode of a node whose SAFE set is empty and whose base is SETUP (R134). -/
theorem modeOf_setup {m : Mct} (hs : m.safe = noSafe) (hb : m.base = .setup) : modeOf m = .setup := by
  simp [modeOf, hs, hb]

theorem climbTaken_takes {x : State} (h : modeOf x.mct ≠ .safe) : climbTakes x (climbTaken x) := by
  have hs : x.mct.safe = noSafe := not_not.1 ((modeOf_safe_iff _).not.1 h)
  refine ⟨?_, ?_, afterCauses_stepFrame x rfl⟩
  · rw [climbTaken, afterCauses_mct]
    rfl
  · rw [climbTaken, modeOf_after]
    exact modeOf_running hs rfl

/-- Settles O12: the order of the checks is `climbOrder`'s, and the readiness checks are `notReady`'s. -/
theorem climbFromSetup : Obligations.ClimbFromSetup := by
  intro sender target rest s h hs hm
  refine ⟨_, exec_addressed rfl rfl rfl h hs, ?_⟩
  have mode : modeOf (judged rest s).mct = .setup := hm
  have ready : readiness (judged rest s) = notReady s := readiness_eq (judged rest s)
  unfold climbOrder
  rw [mode, ready]
  by_cases hp : s.ssq.phase = .idle
  · rw [if_neg (not_not.2 hp)]
    have calm : ¬ (judged rest s).ssq.phase ≠ .idle := not_not.2 hp
    simp only [calm, if_false]
    cases notReady s with
    | some why => exact deliverReply_refuse _ _ _ _
    | none => exact ⟨_, deliverReply_done _ _ _ _, climbTaken_takes (by rw [mode]; simp)⟩
  · have busy : (judged rest s).ssq.phase ≠ .idle := hp
    rw [if_pos hp]
    simp only
    rw [if_pos busy]
    exact deliverReply_refuse _ _ _ _

/-- Settles O13: in SAFE the order is refused; in HOLD and CLIMB it is taken. -/
theorem climbWhileRunning : Obligations.ClimbWhileRunning := by
  intro sender target rest s h hs hm
  refine ⟨_, exec_addressed rfl rfl rfl h hs, ?_⟩
  have taken : modeOf s.mct ≠ .safe →
      climbDone sender rest s (deliverReply sender 1 (doneWith (modeData (climbTaken (judged rest s))) (climbTaken (judged rest s)))) :=
    fun hn => ⟨_, deliverReply_done _ _ _ _, climbTaken_takes hn⟩
  have mode : modeOf (judged rest s).mct = modeOf s.mct := rfl
  unfold climbOrder
  rw [mode]
  cases hn : modeOf s.mct with
  | safe => rw [if_pos rfl]; exact deliverReply_refuse _ _ _ _
  | setup => exact absurd hn hm
  | hold => rw [if_neg (by simp)]; exact taken (by simp [hn])
  | climb => rw [if_neg (by simp)]; exact taken (by simp [hn])

/-! ### HOLD (R149) -/

theorem holdTaken_eq (x : State) :
    addHold .operator x = afterCauses x.mct (x.setMct { x.mct with hold := { x.mct.hold with operator := true } }) := rfl

theorem operator_holds (h : HoldSet) : { h with operator := true } ≠ noHold := fun e => by
  have := congrArg HoldSet.operator e
  simp [noHold] at this

/-- OPERATOR in the hold set makes HOLD of CLIMB and leaves every other mode. -/
theorem modeOf_operator (m : Mct) :
    modeOf { m with hold := { m.hold with operator := true } } = if modeOf m = .climb then .hold else modeOf m := by
  by_cases hs : m.safe = noSafe
  · cases hb : m.base with
    | setup => simp [modeOf, hs, hb]
    | running => by_cases hh : m.hold = noHold <;> simp [modeOf, hs, hb, hh, operator_holds]
  · simp [modeOf, hs]

theorem holdTaken_takes (x : State) : holdTakes x (addHold .operator x) := by
  have mode := modeOf_operator x.mct
  rw [holdTaken_eq]
  refine ⟨?_, fun hc => ?_, fun hc => ?_, fun hc hp => ?_, afterCauses_stepFrame x rfl⟩
  · rw [afterCauses_mct]
    rfl
  · rw [modeOf_after]
    exact mode.trans (by simp [hc])
  · rw [modeOf_after]
    exact mode.trans (by simp [hc])
  · rw [afterCauses_mct]
    simp [settlesNow, hp, hc, mode]

/-- Settles O14: the order adds its cause whatever the mode, and OPERATOR is no cut cause. -/
theorem holdAddsOperator : Obligations.HoldAddsOperator := fun _ _ _ _ h hs =>
  ⟨_, _, exec_addressed rfl rfl rfl h hs, deliverReply_done _ _ _ _, holdTaken_takes _⟩

/-! ### SETUP (R150) -/

/-- Settles O15: the order is taken in HOLD alone, in which the SAFE set is empty. -/
theorem setupOrder_holds : Obligations.SetupOrder := by
  intro sender target rest s h hs
  refine ⟨_, exec_addressed rfl rfl rfl h hs, ?_⟩
  have mode : modeOf (judged rest s).mct = modeOf s.mct := rfl
  by_cases hm : modeOf s.mct = .hold
  · rw [if_neg (not_not.2 hm)]
    unfold setupOrder
    rw [mode, hm]
    have same : ((judged rest s).ssq.phase ≠ .idle ∨ (judged rest s).fct.gate ≠ .closed) =
      (s.ssq.phase ≠ .idle ∨ s.fct.gate ≠ .closed) := rfl
    simp only [same]
    split
    · exact deliverReply_refuse _ _ _ _
    · next hb =>
      have idle : s.ssq.phase = .idle := not_not.1 fun hp => hb (.inl hp)
      have empty : s.mct.safe = noSafe := not_not.1 ((modeOf_safe_iff _).not.1 (by simp [hm]))
      refine ⟨_, deliverReply_done _ _ _ _, ?_, ?_, afterCauses_stepFrame (judged rest s) rfl⟩
      · rw [setupTaken, afterCauses_mct]
        simp [judged, removed, idle, settlesNow_idle]
      · rw [setupTaken, modeOf_after]
        exact modeOf_setup empty rfl
  · rw [if_pos hm]
    have refused : setupOrder (judged rest s) = refuse 3 .mode (judged rest s) := by
      unfold setupOrder
      rw [mode]
      split
      · next h => exact absurd h hm
      · rfl
    rw [refused]
    exact deliverReply_refuse _ _ _ _

/-! ### CLEAR (R142, R151, R152) -/

theorem clearedSafe_eq (x : State) : clearedSafe x = clearLeaves x := by
  simp only [clearedSafe, clearLeaves, spreadGone, spreadTooWide]
  cases (currentReference x).href <;> simp

/-- The causes that CLEAR leaves follow from these parts of the state alone. -/
theorem clearLeaves_congr {x y : State} (pvw : x.pvw = y.pvw) (ssq : x.ssq = y.ssq) (srs : x.srs = y.srs)
    (safe : x.mct.safe = y.mct.safe) : clearLeaves x = clearLeaves y := by
  simp only [clearLeaves, currentReference, nodeNeighbours, nodeHeights, ownStation, pvw, ssq, srs, safe]

/-- The state after the steps that CLEAR takes in every mode: the gate freed, the overrun mark cleared (R152). -/
theorem clearSteps_eq (x : State) : clearSteps x =
    (freeGate (x.setMct { x.mct with window := [] })).setMsq { x.msq with overrun := false } := by
  simp [clearSteps]

theorem clearSteps_mct (x : State) : (clearSteps x).mct = { x.mct with window := [] } := by
  simp [clearSteps_eq]

/-! What the gate is after an operation that moves no JAMMED or CLOSED gate. -/

theorem tryClaim_gate (x : State) : (tryClaim x).fct.gate = x.fct.gate := by
  unfold tryClaim
  split <;> rfl

theorem wantOrDry_gate (x : State) : (wantOrDry x).fct.gate = x.fct.gate := by
  unfold wantOrDry
  split
  · exact tryClaim_gate _
  · rfl

theorem testDry_gate (x : State) : (testDry x).fct.gate = x.fct.gate := by
  unfold testDry
  split
  · exact tryClaim_gate _
  · rfl

theorem endPour_gate {x : State} (r : EndReason) (h : x.fct.gate = .closed ∨ x.fct.gate = .jammed) :
    (endPour r x).fct.gate = x.fct.gate := by
  have still : ¬ ((setPour .ending x).fct.gate = .opening ∨ (setPour .ending x).fct.gate = .opened) := by
    rcases h with h | h <;> simp [setPour, h]
  simp only [endPour, still, if_false]
  simp [setPour]

theorem beginBlock_gate {x : State} (h : x.fct.gate = .closed ∨ x.fct.gate = .jammed) :
    (beginBlock x).fct.gate = x.fct.gate := by
  have abandoned : (abandonClaim x).fct.gate = x.fct.gate := by
    unfold abandonClaim
    split
    · split <;> rfl
    · rfl
  unfold beginBlock
  cases x.fct.pour with
  | claiming => exact abandoned
  | pouring => exact endPour_gate _ h
  | _ => rfl

theorem reportBlock_gate {x : State} (h : x.fct.gate = .closed ∨ x.fct.gate = .jammed) :
    (reportBlock x).fct.gate = x.fct.gate := by
  simp only [reportBlock]
  split
  · rfl
  · split
    · exact beginBlock_gate (x := x.setFct _) h
    · exact testDry_gate _

theorem enterClosed_gate (x : State) : (enterClosed x).fct.gate = .closed := by
  simp only [enterClosed]
  split
  · split
    · simp [enterBackoff, gateChanged]
    · rw [wantOrDry_gate]; simp [gateChanged]
  · rw [testDry_gate]; simp [gateChanged]
  · simp [gateChanged]

theorem afterCauses_gate (m : Mct) {x : State} (h : x.fct.gate = .closed ∨ x.fct.gate = .jammed) :
    (afterCauses m x).fct.gate = x.fct.gate := by
  have reported : ∀ y : State, y.fct = x.fct → (reportBlock y).fct.gate = x.fct.gate := fun y hy => by
    rw [reportBlock_gate (by rw [hy]; exact h), hy]
  simp only [afterCauses]
  apply reported
  (repeat' split) <;> simp

theorem reduceSafe_gate (f : SafeSet) {x : State} (h : x.fct.gate = .closed ∨ x.fct.gate = .jammed) :
    (reduceSafe f x).fct.gate = x.fct.gate := by
  simp only [reduceSafe]
  split
  · rfl
  · exact afterCauses_gate _ h

/-- A JAMMED gate at a CLEAR order: CLOSED with the closed limit on, JAMMED still otherwise (R96). -/
theorem freeGate_gate {x : State} (h : x.fct.gate = .jammed) :
    (freeGate x).fct.gate = if x.pins.gateClosedLimit then .closed else .jammed := by
  cases hl : x.pins.gateClosedLimit with
  | true =>
    have closed := enterClosed_gate x
    simp only [freeGate, h, hl, and_self, if_true]
    rw [reportBlock_gate (.inl closed), closed]
  | false => simp [freeGate, hl, h]

/-- MCT's state after causes leave the SAFE set: OPERATOR alone may join the hold set, so that nothing settles (R140, R142). -/
theorem reduceSafe_mct {f : SafeSet} {x : State} (h : x.mct.safe ≠ noSafe) : (reduceSafe f x).mct =
    { x.mct with
      safe := f
      restored := if f = x.mct.safe then x.mct.restored else if f.restored then x.mct.restored else none
      hold := if f = noSafe ∧ x.mct.base = .running then { x.mct.hold with operator := true } else x.mct.hold } := by
  simp only [reduceSafe]
  split
  · next hf => simp [hf, h]
  · next hf =>
    rw [afterCauses_mct]
    have safe : modeOf x.mct = .safe := (modeOf_safe_iff _).2 h
    have creep : creepPermitted (mctWithSafe f x.mct) = creepPermitted x.mct := by
      simp only [creepPermitted, mctWithSafe]
      split <;> simp [holdPut]
    have calm : ∀ b, settlesNow b x.mct (mctWithSafe f x.mct) = false := fun b => by
      simp [settlesNow, safe, creep]
    simp only [State.setMct_mct, calm, Bool.or_false]
    simp [mctWithSafe, h, holdPut]

theorem reduceSafe_ors {f : SafeSet} {x : State} (h : x.ors.amend = false) : (reduceSafe f x).ors = x.ors := by
  simp only [reduceSafe]
  split
  · rfl
  · exact afterCauses_ors _ _ h

/-- In SAFE the causes whose conditions have ended leave; in the other modes the steps are all. -/
theorem clearTaken_cases (x : State) :
    (modeOf x.mct = .safe → clearTaken x = reduceSafe (clearLeaves x) (clearSteps x)) ∧
      (modeOf x.mct ≠ .safe → clearTaken x = clearSteps x) := by
  have mode : modeOf (clearSteps x).mct = modeOf x.mct := by rw [clearSteps_mct]; rfl
  have cleared : clearedSafe (clearSteps x) = clearLeaves x := by
    rw [clearedSafe_eq]
    exact clearLeaves_congr (by simp) (by simp) (by simp) (by rw [clearSteps_mct])
  refine ⟨fun hm => ?_, fun hm => ?_⟩
  · simp only [clearTaken, mode, hm, if_true, cleared]
  · simp only [clearTaken, mode, hm, if_false]

/-- MCT's state after a CLEAR order (R142, R151, R152). -/
theorem clearTaken_mct (x : State) : (clearTaken x).mct =
    { x.mct with
      window := []
      safe := if modeOf x.mct = .safe then clearLeaves x else x.mct.safe
      restored := if modeOf x.mct = .safe ∧ clearLeaves x ≠ x.mct.safe then none else x.mct.restored
      hold :=
        if modeOf x.mct = .safe ∧ clearLeaves x = noSafe ∧ x.mct.base = .running then { x.mct.hold with operator := true }
        else x.mct.hold } := by
  obtain ⟨inSafe, outside⟩ := clearTaken_cases x
  by_cases hm : modeOf x.mct = .safe
  · have full : (clearSteps x).mct.safe ≠ noSafe := by rw [clearSteps_mct]; exact (modeOf_safe_iff _).1 hm
    rw [inSafe hm, reduceSafe_mct full, clearSteps_mct]
    simp [hm, clearLeaves]
  · rw [outside hm, clearSteps_mct]
    simp [hm]

/-- What a CLEAR order leaves beside MCT's state and the gate. -/
theorem clearTaken_others {x : State} (ha : x.ors.amend = false) :
    (clearTaken x).msq = { x.msq with overrun := false } ∧ (clearTaken x).lif.fifo = x.lif.fifo ∧
      (clearTaken x).ors.amend = false := by
  obtain ⟨inSafe, outside⟩ := clearTaken_cases x
  have msq : (clearSteps x).msq = { x.msq with overrun := false } := by simp [clearSteps_eq]
  have ors : (clearSteps x).ors = x.ors := by simp
  have fifo : (clearSteps x).lif.fifo = x.lif.fifo := by
    simp only [clearSteps_eq, freeGate]
    split <;> simp
  by_cases hm : modeOf x.mct = .safe
  · rw [inSafe hm, reduceSafe_ors (by rw [ors, ha]), ors]
    simp [msq, fifo, ha]
  · rw [outside hm, ors]
    exact ⟨msq, fifo, ha⟩

theorem clearTaken_gate {x : State} (h : x.fct.gate = .jammed) :
    (clearTaken x).fct.gate = if x.pins.gateClosedLimit then .closed else .jammed := by
  obtain ⟨inSafe, outside⟩ := clearTaken_cases x
  have freed : (clearSteps x).fct.gate = if x.pins.gateClosedLimit then .closed else .jammed := by
    rw [clearSteps_eq]
    exact freeGate_gate h
  by_cases hm : modeOf x.mct = .safe
  · rw [inSafe hm, reduceSafe_gate _ (by rw [freed]; split <;> simp), freed]
  · rw [outside hm, freed]

/-- Settles O16: the three steps of R152, then, in SAFE, the causes whose conditions have ended leave. -/
theorem clearOrder_holds : Obligations.ClearOrder := by
  intro sender target rest s h hs
  refine ⟨_, clearTaken (judged rest s), exec_addressed rfl rfl rfl h hs, ?_, ?_⟩
  · simp only [clearOrder]
    split <;> rfl
  obtain ⟨inSafe, outside⟩ := clearTaken_cases (judged rest s)
  have leaves : clearLeaves (judged rest s) = clearLeaves s := rfl
  have mct := clearTaken_mct (judged rest s)
  obtain ⟨msq, fifo, amend⟩ := clearTaken_others (x := judged rest s) rfl
  have stays : ¬ (s.fct.gate = .jammed ∧ s.pins.gateClosedLimit = true) →
      freeGate ((judged rest s).setMct { s.mct with window := [] }) = (judged rest s).setMct { s.mct with window := [] } :=
    fun hg => if_neg hg
  refine ⟨⟨_, freeGate ((judged rest s).setMct { s.mct with window := [] }), clearSteps (judged rest s), rfl, fun hg => ?_, stays,
    clearSteps_eq _, fun hm => ?_, outside⟩, ?_, msq, ?_, ?_, fun hm hr => ?_, fun hm => ?_, fun hg => clearTaken_gate hg,
    fun hm hg => ?_, ?_, fifo, amend, ?_⟩
  · have freed : freeGate ((judged rest s).setMct { s.mct with window := [] }) =
        reportBlock (enterClosed ((judged rest s).setMct { s.mct with window := [] })) := if_pos hg
    rw [freed]
    exact ⟨_, enterClosed_spec _, reportBlock_spec _⟩
  · rw [inSafe hm]
    exact reduceSafe_spec _ _
  · rw [mct]
  · rw [mct]
    rfl
  · rw [mct]
    rfl
  · rw [mct]
    have kept : s.mct.restored = none ∨ clearLeaves s ≠ s.mct.safe := hr.symm.imp_right fun hr e => by
      rw [← e] at hr
      cases hr
    show (if modeOf s.mct = .safe ∧ clearLeaves s ≠ s.mct.safe then none else s.mct.restored) = none
    rcases kept with e | e <;> simp [hm, e]
  · rw [mct]
    show (if modeOf s.mct = .safe ∧ clearLeaves s ≠ s.mct.safe then none else s.mct.restored) = s.mct.restored
    rw [if_neg fun h => hm h.1]
  · rw [outside hm, clearSteps_eq]
    have same : freeGate ((judged rest s).setMct { (judged rest s).mct with window := [] }) =
      (judged rest s).setMct { s.mct with window := [] } := stays fun h => hg h.1
    rw [same]
    exact ⟨rfl, rfl, rfl⟩
  · simp [judged, removed]
  · exact ⟨by simp [judged, removed], by simp [judged, removed], by simp [judged, removed], by simp [judged, removed],
      by simp [judged, removed], by simp [judged, removed], by simp [judged, removed], by simp [judged, removed]⟩

end Sys2Proof.Machine
end

section
/-! The height, trim and plane orders (spec chapters 3 and 4, R61, R62, R84, R85, R87). -/

namespace Sys2Proof.Machine

/-- Settles O17: the model's limit is the one of R61. -/
theorem trimOrders : Obligations.TrimOrders := fun _ _ _ _ _ hs =>
  ⟨fun h => ⟨_, exec_addressed rfl rfl rfl h hs, deliverReply_done _ _ _ _⟩,
    fun h => ⟨_, exec_addressed rfl rfl rfl h hs, deliverReply_done _ _ _ _⟩,
    fun h => ⟨_, exec_addressed rfl rfl rfl h hs, deliverReply_done _ _ _ _⟩⟩

/-- Settles O18: the range is tested before anything changes. -/
theorem planeOrders : Obligations.PlaneOrders := by
  refine fun sender target v rest s hs => ⟨fun h => ⟨_, exec_addressed rfl rfl rfl h hs, ?_⟩,
    fun h => ⟨_, exec_addressed rfl rfl rfl h hs, deliverReply_done _ _ _ _⟩⟩
  unfold planeSetOrder
  split
  · exact deliverReply_refuse _ _ _ _
  · exact deliverReply_done _ _ _ _

/-- A frame shift to a height in range (R80, R81). -/
theorem frameShiftTo_eq {h : Int} (h0 : 0 ≤ h) (h1 : h ≤ 1000000) (v : Bool) (s : State) : frameShiftTo h v s =
    (s.setSsq
      { s.ssq with height := h, heightValid := v, heightLimit := if h < 1000000 then false else s.ssq.heightLimit }).setLco
      (if h = s.ssq.height then s.lco else shiftColumn (h - s.ssq.height) h s.lco) := by
  have inRange : clamp 0 maxHeight h = h := by simp only [clamp, maxHeight]; omega
  have mark : limitMark h s.ssq.heightLimit = if h < 1000000 then false else s.ssq.heightLimit := by
    simp only [limitMark, maxHeight, if_neg (not_lt.2 h1)]
  simp only [frameShiftTo, inRange, mark, sub_eq_zero]
  split <;> rfl

theorem heightTo_done (sender : Nat) {h : Int} (h0 : 0 ≤ h) (h1 : h ≤ 1000000) (rest : List RxPost) (s : State) :
    heightSetTo sender h rest s (deliverReply sender 6 (heightTo h (judged rest s))) := by
  have moved := frameShiftTo_eq h0 h1 true (judged rest s)
  refine ⟨_, ?_, rfl⟩
  rw [heightTo, moved]
  exact deliverReply_done _ _ _ _

/-- Settles O19: the range, then SSQ's phase, then the frame shift. -/
theorem heightSet : Obligations.HeightSet := by
  intro sender target v rest s h hs
  refine ⟨_, exec_addressed rfl rfl rfl h hs, ?_⟩
  have idle : ((judged rest s).ssq.phase ≠ .idle) = (s.ssq.phase ≠ .idle) := rfl
  simp only [heightSetOrder, idle]
  split
  · exact deliverReply_refuse _ _ _ _
  · next hv =>
    split
    · exact deliverReply_refuse _ _ _ _
    · exact heightTo_done sender (Int.natCast_nonneg _) (by omega) rest s

/-! ### The reference on request (R51, R62) -/

/-- A mean of heights lies in their range. -/
theorem meanOf_range {hs : List Int} {m : Int} (h : meanOf hs = some m) (range : ∀ x ∈ hs, 0 ≤ x ∧ x ≤ 1000000) :
    0 ≤ m ∧ m ≤ 1000000 := by
  unfold meanOf at h
  split at h
  · cases h
  · next hn =>
    cases h
    have pos : (0 : Int) < hs.length := by
      have := List.length_pos_iff.2 (by simpa using hn)
      exact_mod_cast this
    have low : 0 ≤ hs.sum := List.sum_nonneg fun x hx => (range x hx).1
    have high : hs.sum ≤ hs.length • (1000000 : Int) := List.sum_le_card_nsmul _ _ fun x hx => (range x hx).2
    refine ⟨Int.ediv_nonneg low pos.le, Int.ediv_le_of_le_mul pos ?_⟩
    simpa [nsmul_eq_mul, mul_comm] using high

/-- An entry that a neighbour search finds stands in the table. -/
theorem FoundBy.mem {sectorAt : Nat → Nat} {s : State} {p : Peer} (h : FoundBy sectorAt s p) : p ∈ s.pvw.peers := by
  obtain ⟨_, _, _, _, hq, _⟩ := h
  exact hq.entry

/-- The reference of peers' heights and an own height in range lies there too. -/
theorem currentReference_range {s : State} (hh : HeightAndTrimRanges s) (hp : PeersInOrder s) {h : Int}
    (href : (currentReference s).href = some h) : 0 ≤ h ∧ h ≤ 1000000 := by
  obtain ⟨two, one, -⟩ := nodeNeighbours_spec s
  obtain ⟨qs, sub, -, heights⟩ := nodeHeights_spec s
  have ring : ∀ x ∈ nodeHeights s, 0 ≤ x ∧ x ≤ 1000000 := by
    intro x hx
    rw [heights, List.mem_append, List.mem_map] at hx
    rcases hx with ⟨p, hq, rfl⟩ | hx
    · exact hp.heights p (sub.subset hq)
    · split at hx
      · rw [List.mem_singleton.1 hx]; exact hh.height
      · cases hx
  unfold currentReference referenceOf at href
  split at href
  · next a b m hn hm =>
    obtain ⟨l, r, -⟩ := two a b hn
    obtain ⟨a0, a1⟩ := hp.heights a (FoundBy.mem l)
    obtain ⟨b0, b1⟩ := hp.heights b (FoundBy.mem r)
    obtain ⟨m0, m1⟩ := meanOf_range hm ring
    cases href
    omega
  · next a m hn hm =>
    obtain ⟨a0, a1⟩ := hp.heights a ((one a hn).elim (fun h => FoundBy.mem h.1) fun h => FoundBy.mem h.1)
    obtain ⟨m0, m1⟩ := meanOf_range hm ring
    cases href
    omega
  · next m hn hm =>
    split at href
    · cases href; exact meanOf_range hm ring
    · split at href
      · cases href; exact hh.height
      · cases href
  · cases href

/-- A reference is given on request where its basis is neighbours or the ring, and then there is one (R51, R62). -/
theorem requestedReference_cases (s : State) :
    (((currentReference s).basis = .self ∨ (currentReference s).basis = .noBasis) ∧ requestedReference s = none) ∨
      (¬ ((currentReference s).basis = .self ∨ (currentReference s).basis = .noBasis) ∧
        ∃ h, requestedReference s = some h ∧ (currentReference s).href = some h) := by
  simp only [requestedReference, currentReference, referenceOf]
  split
  · exact .inr ⟨by simp, _, rfl, rfl⟩
  · exact .inr ⟨by simp, _, rfl, rfl⟩
  · split
    · exact .inr ⟨by simp, _, rfl, rfl⟩
    · split
      · exact .inl ⟨.inl rfl, rfl⟩
      · exact .inl ⟨.inr rfl, rfl⟩
  · exact .inl ⟨.inr rfl, rfl⟩

/-- Settles O20: the reference requested is the one in force where its basis is not self or none. -/
theorem heightAdopt : Obligations.HeightAdopt := by
  intro sender target rest s h hs hh hp
  refine ⟨_, exec_addressed rfl rfl rfl h hs, ?_⟩
  have idle : ((judged rest s).ssq.phase ≠ .idle) = (s.ssq.phase ≠ .idle) := rfl
  have same : requestedReference (judged rest s) = requestedReference s := rfl
  simp only [heightAdoptOrder, idle, same]
  split
  · exact deliverReply_refuse _ _ _ _
  · rcases requestedReference_cases s with ⟨basis, none⟩ | ⟨basis, x, some, href⟩
    · rw [if_pos basis, none]
      exact deliverReply_refuse _ _ _ _
    · obtain ⟨x0, x1⟩ := currentReference_range hh hp href
      rw [if_neg basis, some]
      exact ⟨x, href, x0, x1, heightTo_done sender x0 x1 rest s⟩

end Sys2Proof.Machine
end

section
/-! The orders that read and amend the collections (spec chapter 9, R181 to R185). -/

namespace Sys2Proof.Machine

/-! ### WINDOW (R181) -/

theorem collectionOfCode_iff (n : Nat) (c : Collection) :
    collectionOfCode n = some c ↔ (n = 1 ∧ c = .layers) ∨ (n = 2 ∧ c = .peers) ∨ (n = 3 ∧ c = .strokes) := by
  unfold collectionOfCode
  split <;> cases c <;> simp_all

/-- A window within a collection of this code is taken, with its size in the reply. -/
theorem windowOrder_taken {c : Collection} {code first last : Byte} {x : State} (hc : collectionOfCode code.toNat = some c)
    (order : first.toNat ≤ last.toNat) (size : last.toNat < collectionSize c x) :
    windowOrder code first last x = windowTaken c first last x := by
  have fits : ¬ (last.toNat < first.toNat ∨ collectionSize c x ≤ last.toNat) := by omega
  simp only [windowOrder, hc, fits, if_false]

theorem windowOrder_refused {code first last : Byte} {x : State}
    (h : code.toNat = 0 ∨ 3 < code.toNat ∨ last.toNat < first.toNat ∨
      ∃ c, collectionOfCode code.toNat = some c ∧ collectionSize c x ≤ last.toNat) :
    windowOrder code first last x = refuse 8 .range x := by
  unfold windowOrder
  cases hc : collectionOfCode code.toNat with
  | none => rfl
  | some c =>
    have known := (collectionOfCode_iff _ _).1 hc
    refine if_pos ?_
    rcases h with h | h | h | ⟨d, hd, hl⟩
    · omega
    · omega
    · exact .inl h
    · rw [hc] at hd; cases hd; exact .inr hl

/-- Settles O21: the three codes, and the two tests of the window. -/
theorem windowOrder_holds : Obligations.WindowOrder := by
  refine ⟨fun s => ⟨rfl, rfl, rfl⟩, collectionOfCode_iff, fun sender target code first last rest s h hs =>
    ⟨_, exec_addressed rfl rfl rfl h hs, fun c size hc hsize order fits => ?_, fun hr => ?_⟩⟩
  · subst hsize
    rw [windowOrder_taken (x := judged rest s) hc order fits]
    have code_eq : byteOf (collectionCode c) = code := by
      apply BitVec.eq_of_toNat_eq
      rcases (collectionOfCode_iff _ _).1 hc with ⟨hn, rfl⟩ | ⟨hn, rfl⟩ | ⟨hn, rfl⟩ <;> rw [hn] <;> rfl
    rw [windowTaken, code_eq]
    exact deliverReply_done _ _ _ _
  · rw [windowOrder_refused (x := judged rest s) hr]
    exact deliverReply_refuse _ _ _ _

/-! ### READ (R182, R183) -/

/-- There are fields to show exactly below the size of the collection. -/
theorem recordFields_isSome (c : Collection) (n : Nat) (part : Byte) (s : State) :
    (recordFields c n part s).isSome = true ↔ n < collectionSize c s := by
  cases c <;> simp [recordFields, collectionSize]

/-- Settles O22: the part, the cursor, the position, and the fields of the record there. -/
theorem readOrder_holds : Obligations.ReadOrder := by
  refine fun sender target part rest s h hs => ⟨_, exec_addressed_kept rfl rfl rfl h hs, fun hp => ?_, fun hp hc => ?_,
    fun k hp hc => ?_⟩
  · rw [readOrder, if_pos hp]
    exact deliverReply_refuse _ _ _ _
  · have cursor : (removed rest s).ors.cursor = none := hc
    rw [readOrder, if_neg (not_lt.2 hp), cursor]
    exact deliverReply_refuse _ _ _ _
  · have cursor : (removed rest s).ors.cursor = some k := hc
    have some_iff := recordFields_isSome k.collection k.position part (removed rest s)
    rw [readOrder, if_neg (not_lt.2 hp), cursor]
    simp only
    cases hf : recordFields k.collection k.position part (removed rest s) with
    | none =>
      rw [hf] at some_iff
      refine ⟨fun _ => deliverReply_refuse _ _ _ _, fun hn => absurd (some_iff.2 hn) (by simp)⟩
    | some fields =>
      rw [hf] at some_iff
      refine ⟨fun hn => absurd (some_iff.1 rfl) (not_lt.2 hn), fun _ => ⟨fields, recordFields_shown hp hf, ?_⟩⟩
      have one : part = 1 ↔ part.toNat = 1 := by
        rw [← BitVec.toNat_inj]; rfl
      have moved : cursorAfterRead part (removed rest s).ors.amend k = { k with position :=
          if part.toNat = 1 ∧ s.ors.amend = false then (if k.position = k.last then k.first else k.position + 1)
          else k.position } := by
        have amend : (removed rest s).ors.amend = s.ors.amend := rfl
        simp only [cursorAfterRead, advance, one, amend]
        split <;> rfl
      simp only [readDone, moved]
      exact deliverReply_done _ _ _ _

/-! ### AMEND-BEGIN and AMEND (R184, R185) -/

theorem cursorOnLayers_iff (x : State) : cursorOnLayers x = true ↔ ∃ k, x.ors.cursor = some k ∧ k.collection = .layers := by
  unfold cursorOnLayers
  cases x.ors.cursor <;> simp

theorem amendBegin_answered (sender : Nat) (rest : List RxPost) (s : State) :
    if modeOf s.mct ≠ .setup ∧ modeOf s.mct ≠ .hold then
      repliedTo sender 10 (.refused .mode) [] (judged rest s) (deliverReply sender 10 (amendBeginOrder (judged rest s)))
    else if ∃ k, s.ors.cursor = some k ∧ k.collection = .layers then
      repliedTo sender 10 .done [] ((judged rest s).setOrs { s.ors with amend := true })
        (deliverReply sender 10 (amendBeginOrder (judged rest s)))
    else repliedTo sender 10 (.refused .window) [] (judged rest s)
      (deliverReply sender 10 (amendBeginOrder (judged rest s))) := by
  have mode : modeOf (judged rest s).mct = modeOf s.mct := rfl
  have layers : cursorOnLayers (judged rest s) = true ↔ ∃ k, s.ors.cursor = some k ∧ k.collection = .layers :=
    cursorOnLayers_iff (judged rest s)
  simp only [amendBeginOrder, mode]
  split
  · exact deliverReply_refuse _ _ _ _
  · split
    · next hc =>
      rw [layers.2 hc]
      exact deliverReply_done _ _ _ _
    · next hc =>
      rw [Bool.eq_false_iff.2 (mt layers.1 hc)]
      exact deliverReply_refuse _ _ _ _

/-- Settles O23: amend mode begins at a cursor on LAYERS; an AMEND is judged by its record and its value. -/
theorem amendOrders : Obligations.AmendOrders := by
  refine fun sender target v rest s hs =>
    ⟨fun h => ⟨_, exec_addressed rfl rfl rfl h hs, amendBegin_answered sender rest s⟩,
      fun h => ⟨_, exec_addressed_kept rfl rfl rfl h hs, fun ha => ?_, fun k ha hc => ⟨fun hr => ?_, fun r hr => ?_⟩⟩⟩
  · have amend : (removed rest s).ors.amend = false := ha
    simp only [amendOrder, amend, Bool.not_false, if_true]
    exact deliverReply_refuse _ _ _ _
  · have amend : (removed rest s).ors.amend = true := ha
    have cursor : (removed rest s).ors.cursor = some k := hc
    have size : (removed rest s).lco.column.length ≤ k.position := List.getElem?_eq_none_iff.1 hr
    simp only [amendOrder, amend, Bool.not_true, Bool.false_eq_true, if_false, cursor, size, if_true]
    exact deliverReply_refuse _ _ _ _
  · have amend : (removed rest s).ors.amend = true := ha
    have cursor : (removed rest s).ors.cursor = some k := hc
    have size : ¬ (removed rest s).lco.column.length ≤ k.position := not_le.2 (List.getElem?_eq_some_iff.1 hr).1
    have record : (removed rest s).lco.column[k.position]? = some r := hr
    simp only [amendOrder, amend, Bool.not_true, Bool.false_eq_true, if_false, cursor, size, amendAt, amendLayer, record]
    refine ⟨fun hp => ?_, fun hp hv => ?_, fun hp hv => ?_⟩
    · simp only [hp, if_true]
      exact deliverReply_refuse _ _ _ _
    · simp only [hp, if_false, hv, if_true]
      exact deliverReply_refuse _ _ _ _
    · simp only [hp, if_false, not_lt.2 hv]
      exact deliverReply_done _ _ _ _

end Sys2Proof.Machine
end

section
/-! The setting and calibration orders, RESTART and STATUS (spec chapters 9 and 10, R186 to R190, R195, R201). -/

namespace Sys2Proof.Machine

/-! ### The fields of a setting block (R192) -/

theorem fieldRange_bounds {f : Nat} (h : fieldRange f ≠ none) : 1 ≤ f ∧ f ≤ 41 := by
  by_contra hf
  refine h ?_
  match f, (by omega : f = 0 ∨ 41 < f) with
  | 0, _ => rfl
  | n + 42, _ => rfl

theorem fieldValue_setField_same (c : Settings) {f : Nat} (hf : 1 ≤ f ∧ f ≤ 41) (v : Int) :
    fieldValue (setField c f v) f = some v := by
  obtain ⟨h1, h2⟩ := hf
  interval_cases f <;> rfl

/-- A field written leaves every other field: 41 fields written, 41 fields read. -/
theorem fieldValue_setField_other (c : Settings) {f n : Nat} (h : n ≠ f) (v : Int) :
    fieldValue (setField c f v) n = fieldValue c n := by
  unfold setField
  split
  case h_42 => rfl
  all_goals
    unfold fieldValue
    split <;> first | rfl | exact absurd rfl h

/-! ### SETTING and DEFAULTS (R186) -/

/-- The mode and key conditions that SETTING, DEFAULTS, STORE and CALIBRATE share, in their order. -/
theorem serviceCheck_cases (rest : List RxPost) (s : State) :
    (modeOf s.mct ≠ .setup ∧ serviceCheck (judged rest s) = some .mode) ∨
      (modeOf s.mct = .setup ∧ s.mct.key ≠ .service ∧ serviceCheck (judged rest s) = some .key) ∨
      (modeOf s.mct = .setup ∧ s.mct.key = .service ∧ serviceCheck (judged rest s) = none) := by
  have judges : serviceCheck (judged rest s) =
    if modeOf s.mct ≠ .setup then some .mode else if s.mct.key ≠ .service then some .key else none := rfl
  rw [judges]
  by_cases hm : modeOf s.mct = .setup <;> by_cases hk : s.mct.key = .service <;> simp [hm, hk]

theorem settingOrder_answered (field : Byte) (v : BitVec 32) (rest : List RxPost) (s : State) (sender : Nat) :
    let t := deliverReply sender 12 (settingOrder field v (judged rest s))
    if modeOf s.mct ≠ .setup then repliedTo sender 12 (.refused .mode) [] (judged rest s) t
    else if s.mct.key ≠ .service then repliedTo sender 12 (.refused .key) [] (judged rest s) t
    else
      match fieldRange field.toNat with
      | none => repliedTo sender 12 (.refused .range) [] (judged rest s) t
      | some (lo, hi) =>
        if lo ≤ v.toInt ∧ v.toInt ≤ hi then
          ∃ c : Settings, fieldValue c field.toNat = some v.toInt ∧
            (∀ n, n ≠ field.toNat → fieldValue c n = fieldValue s.srs.staged n) ∧
            repliedTo sender 12 .done (field :: beBytes 4 v.toInt) ((judged rest s).setSrs { s.srs with staged := c }) t
        else repliedTo sender 12 (.refused .range) [] (judged rest s) t := by
  unfold settingOrder
  obtain ⟨hm, judges⟩ | ⟨hm, hk, judges⟩ | ⟨hm, hk, judges⟩ := serviceCheck_cases rest s
  · rw [judges, if_pos hm]; exact deliverReply_refuse _ _ _ _
  · rw [judges, if_neg (not_not.2 hm), if_pos hk]; exact deliverReply_refuse _ _ _ _
  · rw [judges, if_neg (not_not.2 hm), if_neg (not_not.2 hk)]
    have tested : inFieldRange field.toNat v.toInt = match fieldRange field.toNat with
      | some (lo, hi) => decide (lo ≤ v.toInt ∧ v.toInt ≤ hi)
      | none => false := rfl
    rw [tested]
    cases hr : fieldRange field.toNat with
    | none => exact deliverReply_refuse _ _ _ _
    | some range =>
      obtain ⟨lo, hi⟩ := range
      have bounds : 1 ≤ field.toNat ∧ field.toNat ≤ 41 := fieldRange_bounds (by simp [hr])
      simp only [decide_eq_true_eq]
      split
      · exact ⟨_, fieldValue_setField_same _ bounds _, fun n hn => fieldValue_setField_other _ hn _, deliverReply_done _ _ _ _⟩
      · exact deliverReply_refuse _ _ _ _

/-- Settles O24: the tables of R192, and the tests in their order. -/
theorem settingAndDefaults : Obligations.SettingAndDefaults := by
  refine ⟨rfl, rfl, fun sender target field v rest s hs => ⟨fun h => ⟨_, exec_addressed rfl rfl rfl h hs,
    settingOrder_answered field v rest s sender⟩, fun h => ⟨_, exec_addressed rfl rfl rfl h hs, ?_⟩⟩⟩
  unfold defaultsOrder
  obtain ⟨hm, judges⟩ | ⟨hm, hk, judges⟩ | ⟨hm, hk, judges⟩ := serviceCheck_cases rest s
  · rw [judges, if_pos hm]; exact deliverReply_refuse _ _ _ _
  · rw [judges, if_neg (not_not.2 hm), if_pos hk]; exact deliverReply_refuse _ _ _ _
  · rw [judges, if_neg (not_not.2 hm), if_neg (not_not.2 hk)]; exact deliverReply_done _ _ _ _

/-! ### STORE and the writes (R187, R195) -/

theorem storeBase_iff (r : Srs) :
    storeBase r = false ↔ r.loadResult ≠ .good ∧ r.checkAgreed = false ∧ r.defaultsTaken = false := by
  simp [storeBase, and_assoc]

/-- A write asked for begins, or waits for the one in progress (R195). -/
theorem askWrite_eq (w : BlockWrite) (r : Srs) : askWrite w r =
    if r.write = none then { r with write := some w, stored := none }
    else { r with writesWaiting := r.writesWaiting ++ [w] } := by
  unfold askWrite
  cases r.write <;> rfl

/-- Settles O25: the base is tested last, and the reply of a STORE that is taken waits for its write. -/
theorem storeOrder_holds : Obligations.StoreOrder := by
  refine fun sender target rest s h hs => ⟨_, exec_addressed rfl rfl rfl h hs, ?_⟩
  unfold storeOrder
  obtain ⟨hm, judges⟩ | ⟨hm, hk, judges⟩ | ⟨hm, hk, judges⟩ := serviceCheck_cases rest s
  · rw [judges, if_pos hm]; exact deliverReply_refuse _ _ _ _
  · rw [judges, if_neg (not_not.2 hm), if_pos hk]; exact deliverReply_refuse _ _ _ _
  · rw [judges, if_neg (not_not.2 hm), if_neg (not_not.2 hk)]
    have base := storeBase_iff s.srs
    have same : storeBase (judged rest s).srs = storeBase s.srs := rfl
    rw [same]
    cases hb : storeBase s.srs with
    | false =>
      rw [if_pos (base.1 hb)]
      exact deliverReply_refuse _ _ _ _
    | true =>
      rw [if_neg fun hn => by rw [base.2 hn] at hb; cases hb]
      exact congrArg (State.setSrs _) (askWrite_eq _ _)

/-- The write in progress done (R195). -/
theorem writeCompleted_eq (w : BlockWrite) (r : Srs) : writeCompleted w r =
    { r with
      stored := if r.writesWaiting = [] then some { fields := w.block, check := crcOf (settingBytes w.block) } else none
      write := r.writesWaiting.head?
      writesWaiting := r.writesWaiting.tail } := by
  unfold writeCompleted
  cases hq : r.writesWaiting with
  | nil => simp [writtenBlock, settingCheck_eq]
  | cons next more => simp [beginWrite]

/-- The block that a completed write leaves has a check that agrees. -/
theorem writeCompleted_agrees {w : BlockWrite} {r : Srs} {b : StoredBlock} (h : (writeCompleted w r).stored = some b) :
    b.checkAgrees = true := by
  unfold writeCompleted at h
  split at h
  · cases h; exact writtenBlock_agrees _
  · cases h

/-- The report of a STORE's write, where the write is one. -/
theorem storeReported_eq (s : State) : storeReported s = match s.ors.storeWaiting with
    | some sender =>
      (s.setOrs { s.ors with storeWaiting := none }).setLif (queueReplyPost (replyPayload sender 13 .done []) s.lif)
    | none => s := rfl

/-- A waiting RESTART begins once its reply has gone and no write is in progress (R201). -/
theorem tryRestart_eq (s : State) : tryRestart s =
    if s.ors.restartWaiting = true ∧ s.srs.restartReady = true ∧ s.srs.write = none then restartBegun s else s := rfl

/-- Settles O26: the write completed, its STORE reported, and the waiting RESTART tried. -/
theorem storeWriteDone : Obligations.StoreWriteDone := by
  intro w s hw up
  have reported : ∀ x : State, (storeReported x).srs = x.srs ∧ (storeReported x).ors.restartWaiting = x.ors.restartWaiting := by
    intro x
    rw [storeReported_eq]
    cases x.ors.storeWaiting <;> exact ⟨rfl, rfl⟩
  refine ⟨s.setSrs (writeCompleted w s.srs),
    if w.forStore then storeReported (s.setSrs (writeCompleted w s.srs)) else s.setSrs (writeCompleted w s.srs),
    ?_, by rw [writeCompleted_eq], fun b hb => writeCompleted_agrees hb, fun hn => ?_, fun sender hf hs => ?_⟩
  · have done : exec .storeWriteDone s = .next (writeDone w s) := by
      show execStoreWriteDone s = _
      unfold execStoreWriteDone
      rw [hw]
      simp only [up, if_true]
    have queue : (writeCompleted w s.srs).write = none ↔ s.srs.writesWaiting = [] := by
      rw [writeCompleted_eq]
      exact List.head?_eq_none_iff
    have ready : (writeCompleted w s.srs).restartReady = s.srs.restartReady := by rw [writeCompleted_eq]
    have kept : ∀ v : State, v.srs = writeCompleted w s.srs → v.ors.restartWaiting = s.ors.restartWaiting →
        tryRestart v = if s.ors.restartWaiting = true ∧ s.srs.restartReady = true ∧ s.srs.writesWaiting = [] then restartBegun v
          else v := fun v hv hr => by
      simp only [tryRestart_eq, hv, hr, ready, queue]
    rw [done]
    refine congrArg _ (kept _ ?_ ?_)
    · split
      · exact (reported _).1
      · rfl
    · split
      · exact (reported _).2
      · rfl
  · split
    · next hf =>
      have waits : s.ors.storeWaiting = none := hn.resolve_left (by simp [hf])
      rw [storeReported_eq]
      simp only [State.setSrs_ors, waits]
    · rfl
  · rw [if_pos hf, storeReported_eq]
    simp only [State.setSrs_ors, hs, State.setSrs_lif]

/-! ### CALIBRATE (R88, R189) -/

theorem clearForCalibration_iff (mRel : Int) (l : Lco) :
    clearForCalibration mRel l = false ↔ l.known = false ∨ ∃ r ∈ l.column, (r.maturity : Int) < mRel := by
  cases hk : l.known <;> simp [clearForCalibration, hk]

/-- Settles O27: the checks in their order, and the stroke that SSQ takes. -/
theorem calibrateOrder_holds : Obligations.CalibrateOrder := by
  refine fun sender target rest s h hs => ⟨_, exec_addressed rfl rfl rfl h hs, ?_⟩
  unfold calibrateOrder
  obtain ⟨hm, judges⟩ | ⟨hm, hk, judges⟩ | ⟨hm, hk, judges⟩ := serviceCheck_cases rest s
  · rw [judges, if_pos hm]; exact deliverReply_refuse _ _ _ _
  · rw [judges, if_neg (not_not.2 hm), if_pos hk]; exact deliverReply_refuse _ _ _ _
  · rw [judges, if_neg (not_not.2 hm), if_neg (not_not.2 hk)]
    have column := clearForCalibration_iff s.srs.active.mRel s.lco
    have same : clearForCalibration (judged rest s).srs.active.mRel (judged rest s).lco =
      clearForCalibration s.srs.active.mRel s.lco := rfl
    have idle : ((judged rest s).ssq.phase ≠ .idle) = (s.ssq.phase ≠ .idle) := rfl
    simp only [same, idle]
    cases hc : clearForCalibration s.srs.active.mRel s.lco with
    | false =>
      rw [if_pos (column.1 hc)]
      exact deliverReply_refuse _ _ _ _
    | true =>
      rw [if_neg fun hn => by rw [column.2 hn] at hc; cases hc]
      simp only [Bool.not_true, Bool.false_eq_true, if_false]
      split
      · exact deliverReply_refuse _ _ _ _
      · exact ⟨_, deliverReply_done _ _ _ _, startStroke_spec _ _ _⟩

/-! ### STATUS (R190) -/

theorem statusPage_isSome (page : Nat) (s : State) : (statusPage page s).isSome = true ↔ page ≤ 8 := by
  constructor
  · intro h
    by_contra above
    obtain ⟨n, rfl⟩ : ∃ n, page = n + 9 := ⟨page - 9, by omega⟩
    cases h
  · intro h
    interval_cases page <;> rfl

/-- Settles O29: the pages of R160, and RANGE above them. -/
theorem statusOrder_holds : Obligations.StatusOrder := by
  refine fun sender target page rest s h hs => ⟨_, exec_addressed rfl rfl rfl h hs, fun hp => ?_, fun hp => ?_⟩
  · obtain ⟨fields, hf⟩ := Option.isSome_iff_exists.1 ((statusPage_isSome page.toNat (judged rest s)).2 hp)
    refine ⟨fields, statusPage_shown hf, ?_⟩
    rw [statusOrder, hf]
    exact deliverReply_done _ _ _ _
  · have none : statusPage page.toNat (judged rest s) = none := by
      rw [← Option.not_isSome_iff_eq_none, statusPage_isSome]
      omega
    rw [statusOrder, none]
    exact deliverReply_refuse _ _ _ _

end Sys2Proof.Machine
end

section
/-! RESTART, and the rules that every order shares: ring-wide orders, orders while a STORE waits, invalid orders (R153, R158, R177,
R188). -/

namespace Sys2Proof.Machine

variable {s : State} {sender target : Nat} {code : Byte} {args : List Byte} {rest : List RxPost}

/-! ### What the save keeps (R198) -/

/-- A column with no POURING record is ended as it stands (R7). -/
theorem endLayer_calm {own lMin : Int} {reason : EndReason} {l : Lco} (h : ∀ r ∈ l.column, r.state ≠ .pouring) :
    endLayer own lMin reason l = l := by
  unfold endLayer
  cases hy : youngest l with
  | none => rfl
  | some r => exact if_neg (h r (List.mem_of_getLast? hy))

theorem areaSaved_retainedOf (atRestart : Bool) (s : State) : AreaSaved atRestart s (retainedOf atRestart s) where
  height := ⟨rfl, rfl⟩
  stroke := ⟨rfl, rfl, rfl, rfl⟩
  extension := extension_spec s
  column h := congrArg Lco.column (endLayer_calm h)
  pour := rfl
  clock := rfl
  trim := rfl
  modes := ⟨rfl, decide_eq_decide.2 (modeOf_safe_iff s.mct), rfl, rfl⟩
  marking := rfl

/-! ### RESTART (R188, R201) -/

theorem blocksRun_iff (s : State) : blocksRun s = true ↔ s.srs.life = .up ∧ s.ors.restartWaiting = false := by
  simp [blocksRun]

/-- A RESTART that waits in MUTE or silence begins unless a write is in progress; nothing else is changed by it. -/
theorem restartWithoutReply_waiting {x : State} (hw : x.ors.restartWaiting = true) (up : x.srs.life = .up) :
    ∃ ready, restartWithoutReply x =
      if (x.lif.muted = true ∨ x.lif.silent = true) ∧ x.srs.write = none then
        (x.setSrs { x.srs with life := .restarting, restartReady := ready }).setOrs { x.ors with restartWaiting := false }
      else x.setSrs { x.srs with life := .up, restartReady := ready } := by
  have same : x.srs = { x.srs with life := .up, restartReady := x.srs.restartReady } := by rw [← up]
  by_cases hq : x.lif.muted = true ∨ x.lif.silent = true
  · refine ⟨true, ?_⟩
    simp only [restartWithoutReply, hw, hq, and_self, if_true, tryRestart_eq, State.setSrs_ors, State.setSrs_srs, true_and]
    split
    · rfl
    · rw [← up]
  · refine ⟨x.srs.restartReady, ?_⟩
    simp only [hq, restartWithoutReply, and_false, false_and, if_false]
    rw [← same]
    rfl

theorem restartWithoutReply_calm {x : State} (hw : x.ors.restartWaiting = false) : restartWithoutReply x = x := by
  simp [restartWithoutReply, hw]

theorem queueReplyPost_marks (p : List Byte) (l : Lif) :
    (queueReplyPost p l).muted = l.muted ∧ (queueReplyPost p l).silent = l.silent := by
  unfold queueReplyPost
  split <;> exact ⟨rfl, rfl⟩

/-- An addressed RESTART, with what follows its reply. -/
theorem exec_restart (h : AddressedOrder sender target 16 [] rest s) (hs : NotStoring s) :
    exec (.restart sender target) s =
      .next (restartWithoutReply (deliverReply sender 16 (restartOrder (judged rest s)))) := by
  show execRestart sender target s = _
  rw [execRestart, if_pos h.runs, takeCommand_addressed _ _ rfl h, answerOrder_judged rfl hs]

/-- Settles O28: the refusals leave no RESTART waiting; one taken saves, and begins at once where its reply cannot go. -/
theorem restartOrder_holds : Obligations.RestartOrder := by
  refine fun sender target rest s h hs => ⟨_, exec_restart h hs, ?_⟩
  obtain ⟨up, waits⟩ := (blocksRun_iff s).1 h.runs
  have judges : restartRefusal (judged rest s) =
    if modeOf s.mct = .climb then some .mode else if s.ssq.phase ≠ .idle ∨ s.fct.gate ≠ .closed then some .busy else none := rfl
  have refused (why : Reason) : restartWithoutReply (deliverReply sender 16 (refuse 16 why (judged rest s))) =
      deliverReply sender 16 (refuse 16 why (judged rest s)) := restartWithoutReply_calm waits
  unfold restartOrder
  rw [judges]
  split
  · simp only [refused]; exact deliverReply_refuse _ _ _ _
  split
  · simp only [refused]; exact deliverReply_refuse _ _ _ _
  obtain ⟨ready, begun⟩ := restartWithoutReply_waiting
    (x := deliverReply sender 16 (doneWith [] (restartTaken (judged rest s)))) rfl up
  obtain ⟨marks, silences⟩ := queueReplyPost_marks (replyPayload sender 16 .done []) { s.lif with fifo := rest }
  have muted : (deliverReply sender 16 (doneWith [] (restartTaken (judged rest s)))).lif.muted = s.lif.muted := marks
  have silent : (deliverReply sender 16 (doneWith [] (restartTaken (judged rest s)))).lif.silent = s.lif.silent := silences
  have free : (deliverReply sender 16 (doneWith [] (restartTaken (judged rest s)))).srs.write = s.srs.write := rfl
  have saved : AreaSaved true s (retainedOf true s) := areaSaved_retainedOf true s
  simp only [begun, muted, silent, free]
  split <;>
    exact ⟨rfl, rfl, rfl, ⟨_, rfl, saved⟩, ⟨rfl, rfl, rfl, rfl⟩, rfl, rfl, rfl, rfl, rfl, rfl, rfl, rfl, rfl, rfl⟩

/-! ### Every order command (R158, R177) -/

/-- Any order command but the two that carry raw bytes is taken by the same rule; RESTART alone adds a step, which leaves a node with
no RESTART waiting as it is. -/
theorem exec_order_command {i : Instr} {p : Nat × Nat × Byte × List Byte} (hp : orderParts i = some p)
    (hi : ∀ a b c d, i ≠ .orderInvalid a b c d ∧ i ≠ .orderWhileStoring a b c d) (s : State) :
    ∃ (ring : State → State) (act : State → Answer) (after : State → State), exec i s = .next (after (takeCommand i ring act s)) ∧
      (p.2.2.1 ≠ 1 → p.2.2.1 ≠ 2 → p.2.2.1 ≠ 7 → ring = ignoreRing) ∧
      ∀ t, (blocksRun s = true → t.ors.restartWaiting = false) → (blocksRun s = false → t = s) → after t = t := by
  cases i
  case orderInvalid a b c d => exact absurd rfl (hi a b c d).1
  case orderWhileStoring a b c d => exact absurd rfl (hi a b c d).2
  case restart a b =>
    refine ⟨ignoreRing, restartOrder, fun t => if blocksRun s then restartWithoutReply t else s, rfl, fun _ _ _ => rfl,
      fun t on off => ?_⟩
    cases hr : blocksRun s with
    | false => exact (off hr).symm
    | true => exact restartWithoutReply_calm (on hr)
  case climb a b => exact ⟨_, _, id, rfl, fun h _ _ => by cases hp; exact absurd rfl h, fun _ _ _ => rfl⟩
  case hold a b => exact ⟨_, _, id, rfl, fun _ h _ => by cases hp; exact absurd rfl h, fun _ _ _ => rfl⟩
  case planeSet | planeWithdraw => exact ⟨_, _, id, rfl, fun _ _ h => by cases hp; exact absurd rfl h, fun _ _ _ => rfl⟩
  all_goals
    cases hp <;> exact ⟨_, _, id, rfl, fun _ _ _ => rfl, fun _ _ _ => rfl⟩

/-! ### Orders that are none, and orders while a STORE waits (R177) -/

theorem refusedData_eq (code : Byte) (s : State) : refusedData code s =
    if 1 ≤ code.toNat ∧ code.toNat ≤ 4 then modeData s else if code.toNat = 5 then [byteOf s.cpl.trim] else [] := by
  unfold refusedData
  split
  case h_6 h1 h2 h3 h4 h5 =>
    simp only [imp_false] at h1 h2 h3 h4
    rw [if_neg (by omega), if_neg h5]
  all_goals
    next hc => simp [hc]

/-- A refusal by the rule of R177 alone, in the state that the order's code leaves amend mode in. -/
theorem deliverReply_endAmend (sender : Nat) (code : Byte) (why : Reason) (rest : List RxPost) (s : State) :
    repliedTo sender code (.refused why) (refusedData code s) (if code = 9 ∨ code = 11 then removed rest s else judged rest s)
      (deliverReply sender code (refuse code why (endAmend code (removed rest s)))) := by
  unfold endAmend keepsAmend
  by_cases hc : code = 9 ∨ code = 11
  · simp only [hc, decide_true, if_true]; exact deliverReply_refuse _ _ _ _
  · simp only [hc, decide_false, Bool.false_eq_true, if_false]; exact deliverReply_refuse _ _ _ _

theorem endAmend_stores (code : Byte) (s : State) : (endAmend code s).ors.storeWaiting = s.ors.storeWaiting := by
  unfold endAmend
  split <;> rfl

/-- An order that is not offered to ORS changes nothing, whichever command stands for it. -/
theorem exec_foreign {i : Instr} (hp : orderParts i = some (sender, target, code, args))
    (h : sender = ownStation s ∨ sender = 0 ∨ 62 < sender ∨ (target ≠ ownStation s ∧ target ≠ 63)) : exec i s = .next s := by
  by_cases hi : ∀ a b c d, i ≠ .orderInvalid a b c d ∧ i ≠ .orderWhileStoring a b c d
  · obtain ⟨ring, act, after, he, -, ha⟩ := exec_order_command hp hi s
    rw [he, takeCommand_foreign ring act hp h]
    exact congrArg _ (ha s (fun hr => ((blocksRun_iff s).1 hr).2) fun _ => rfl)
  · simp only [not_forall, not_and_or, not_not] at hi
    obtain ⟨a, b, c, d, rfl | rfl⟩ := hi
    · show execOrderInvalid a b c d s = _
      unfold execOrderInvalid
      rw [takeCommand_foreign _ _ hp h]
      cases orderOf a b c d <;> rfl
    · show execOrderWhileStoring a b c d s = _
      unfold execOrderWhileStoring
      rw [takeCommand_foreign _ _ hp h, ite_self]

theorem ite_isNone {α : Type} {c : Prop} [Decidable c] {x y x' y' : Option α} (h : x.isNone = x'.isNone)
    (k : y.isNone = y'.isNone) : (if c then x else y).isNone = (if c then x' else y').isNone := by
  split
  · exact h
  · exact k

/-- Whether an order's bytes spell an order does not depend on the station it is for. -/
theorem orderOf_isNone (sender target target' : Nat) (code : Byte) (args : List Byte) :
    (orderOf sender target code args).isNone = (orderOf sender target' code args).isNone := by
  unfold orderOf
  generalize code.toNat = n
  obtain hn | ⟨k, rfl⟩ : n ≤ 17 ∨ ∃ k, n = k + 18 := by
    rcases Nat.lt_or_ge n 18 with h | h
    · exact .inl (by omega)
    · exact .inr ⟨n - 18, by omega⟩
  · interval_cases n
    all_goals obtain _ | ⟨a, _ | ⟨b, _ | ⟨c, _| ⟨d, _ | ⟨e, _ | ⟨f, g⟩⟩⟩⟩⟩⟩ := args <;> try rfl
    · exact ite_isNone rfl (ite_isNone rfl rfl)
    all_goals exact ite_isNone rfl rfl
  · rfl
/-- Settles O30: an order that spells none is refused by R177 alone. -/
theorem invalidOrders : Obligations.InvalidOrders := by
  refine ⟨refusedData_eq, fun sender target code args rest s none hs =>
    ⟨fun h => ?_, fun h => ?_, fun i sent goal order given hp foreign => exec_foreign hp foreign⟩⟩
  · refine ⟨deliverReply sender code (refuse code .range (endAmend code (removed rest s))), ?_, deliverReply_endAmend _ _ _ _ _⟩
    show execOrderInvalid sender target code args s = _
    have idle : (endAmend code (removed rest s)).ors.storeWaiting.isSome = false := by
      rw [endAmend_stores]
      exact congrArg Option.isSome hs
    unfold execOrderInvalid
    rw [none, takeCommand_addressed _ _ rfl h]
    simp only [answerOrder, idle, Bool.false_eq_true, if_false]
  · have none : orderOf sender 63 code args = .none := by
      rw [← Option.isNone_iff_eq_none] at none ⊢
      rw [orderOf_isNone sender 63 target, none]
    show execOrderInvalid sender 63 code args s = _
    have idle : s.ors.storeWaiting.isSome = false := congrArg Option.isSome hs
    unfold execOrderInvalid
    rw [none, takeCommand_ring _ _ rfl h, idle]
    rfl

/-- Settles O31: the rule of R177 asks for the store-waiting mark before the order's own. -/
theorem busyWhileStoring : Obligations.BusyWhileStoring := by
  intro i sender target code args rest s hp hi storing
  have waits : s.ors.storeWaiting.isSome = true := Option.isSome_iff_ne_none.2 storing
  have taken : ∀ t : State, (∀ ring act, takeCommand i ring act s = t) → t.ors.restartWaiting = s.ors.restartWaiting →
      blocksRun s = true → exec i s = .next t := by
    intro t ht kept runs
    by_cases hw : ∀ a b c d, i ≠ .orderWhileStoring a b c d
    · obtain ⟨ring, act, after, he, -, ha⟩ := exec_order_command hp (fun a b c d => ⟨hi a b c d, hw a b c d⟩) s
      rw [he, ht]
      exact congrArg _ (ha t (fun hr => kept.trans ((blocksRun_iff s).1 hr).2) fun hr => by rw [hr] at runs; cases runs)
    · simp only [not_forall, not_not] at hw
      obtain ⟨a, b, c, d, rfl⟩ := hw
      show execOrderWhileStoring a b c d s = _
      rw [execOrderWhileStoring, waits, ht]
      rfl
  refine ⟨fun h => ⟨deliverReply sender code (refuse code .busy (endAmend code (removed rest s))), taken _ (fun ring act => ?_) ?_ h.runs,
    deliverReply_endAmend _ _ _ _ _⟩, fun ht h => taken _ (fun ring act => ?_) rfl h.runs⟩
  · have still : (endAmend code (removed rest s)).ors.storeWaiting.isSome = true := by
      rw [endAmend_stores]
      exact waits
    rw [takeCommand_addressed ring act hp h]
    simp only [answerOrder, still, if_true]
  · show (endAmend code (removed rest s)).ors.restartWaiting = _
    unfold endAmend
    split <;> rfl
  · subst ht
    rw [takeCommand_ring ring act hp h, waits]
    rfl

/-! ### Ring-wide orders (R153, R177) -/

/-- A ring-wide order with its post taken. -/
theorem exec_ring {i : Instr} {ring : State → State} {act : State → Answer}
    (he : exec i s = .next (takeCommand i ring act s)) (hp : orderParts i = some (sender, 63, code, args))
    (h : RingOrder sender code args rest s) (hs : NotStoring s) : exec i s = .next (ring (removed rest s)) := by
  have idle : s.ors.storeWaiting.isSome = false := congrArg Option.isSome hs
  rw [he, takeCommand_ring ring act hp h, idle]
  rfl

/-- The state that a CLIMB order leaves: its own where the order is taken, the one before where it is refused. -/
theorem climbOrder_state (x : State) : (climbOrder x).state =
    if modeOf x.mct = .safe ∨ (modeOf x.mct = .setup ∧ (x.ssq.phase ≠ .idle ∨ notReady x ≠ none)) then x else climbTaken x := by
  unfold climbOrder
  rw [readiness_eq]
  cases modeOf x.mct with
  | safe => rfl
  | setup =>
    by_cases hp : x.ssq.phase = .idle
    · cases hn : notReady x <;> simp [hp, refuse, doneWith]
    · simp [hp, refuse]
  | hold => simp [doneWith]
  | climb => simp [doneWith]

/-- Settles O32: CLIMB, HOLD and PLANE act ring-wide by the addressed orders' rules; every other rule is `ignoreRing`. -/
theorem ringWideOrders : Obligations.RingWideOrders := by
  refine fun sender rest s hs => ⟨fun h => ⟨_, exec_ring rfl rfl h hs, ?_, ?_⟩, fun h => ⟨_, exec_ring rfl rfl h hs, holdTaken_takes _⟩,
    fun v h => ?_, fun h => (exec_ring rfl rfl h hs).trans rfl, fun i code args hp h1 h2 h7 hi h => ?_⟩
  · intro refused
    rw [climbOrder_state]
    exact if_pos refused
  · intro calm taken
    have passes : ¬ (modeOf s.mct = .safe ∨ (modeOf s.mct = .setup ∧ (s.ssq.phase ≠ .idle ∨ notReady s ≠ none))) := by
      rintro (hn | ⟨hm, busy | unready⟩)
      · exact calm hn
      · exact busy (taken hm).1
      · exact unready (taken hm).2
    have state : (climbOrder (removed rest s)).state = climbTaken (removed rest s) :=
      (climbOrder_state _).trans (if_neg passes)
    rw [state]
    exact climbTaken_takes (x := removed rest s) calm
  · rw [exec_ring rfl rfl h hs]
    unfold planeSetOrder
    split <;> rfl
  · have idle : s.ors.storeWaiting.isSome = false := congrArg Option.isSome hs
    obtain ⟨ring, act, after, he, ignores, ha⟩ := exec_order_command hp hi s
    have ignored : ring = ignoreRing := ignores h1 h2 h7
    rw [he, takeCommand_ring ring act hp h, idle, ignored]
    exact congrArg _ (ha _ (fun hr => ((blocksRun_iff s).1 hr).2) fun hr => by rw [h.runs] at hr; cases hr)

/-! ### The bytes of an order (R158) -/

theorem append_bytes3 (v : BitVec 24) : v.extractLsb' 16 8 ++ v.extractLsb' 8 8 ++ v.extractLsb' 0 8 = v := by
  ext i hi
  simp only [BitVec.getElem_append, BitVec.getElem_extractLsb']
  split
  · simp [BitVec.getLsbD_eq_getElem, hi]
  split <;> rw [← BitVec.getLsbD_eq_getElem] <;> congr 1 <;> omega

theorem append_bytes4 (v : BitVec 32) :
    v.extractLsb' 24 8 ++ v.extractLsb' 16 8 ++ v.extractLsb' 8 8 ++ v.extractLsb' 0 8 = v := by
  ext i hi
  simp only [BitVec.getElem_append, BitVec.getElem_extractLsb']
  split
  · simp [BitVec.getLsbD_eq_getElem, hi]
  split
  · rw [← BitVec.getLsbD_eq_getElem]; congr 1; omega
  split <;> rw [← BitVec.getLsbD_eq_getElem] <;> congr 1 <;> omega

/-- Settles O3: command by command, the table read there and back. -/
theorem orderRoundTrip : Obligations.OrderRoundTrip := by
  intro i sender target code args hp hi
  cases i
  case orderInvalid a b c d => exact absurd rfl (hi a b c d).1
  case orderWhileStoring a b c d => exact absurd rfl (hi a b c d).2
  case heightSet a b v => cases hp; exact congrArg (fun v => some (Instr.heightSet sender target v)) (append_bytes3 v)
  case planeSet a b v => cases hp; exact congrArg (fun v => some (Instr.planeSet sender target v)) (append_bytes3 v)
  case amend a b v => cases hp; exact congrArg (fun v => some (Instr.amend sender target v)) (append_bytes3 v)
  case setting a b f v => cases hp; exact congrArg (fun v => some (Instr.setting sender target f v)) (append_bytes4 v)
  all_goals cases hp <;> rfl
end Sys2Proof.Machine
end

section
/-! The bytes of posts on the line (spec chapter 8, R156, R157, R161, R162) and the access gaps (R165). -/

namespace Sys2Proof.Machine

/-! ### The check divides the frame it ends (R156) -/

theorem byteOfBits_getLsbD (bits : List Bool) {i : Nat} (hi : i < 8) : (byteOfBits bits).getLsbD i = bits.getD i false := by
  induction bits generalizing i with
  | nil => simp [byteOfBits]
  | cons b bits ih =>
    have first : (if b = true then 1#8 else 0#8).getLsbD i = (decide (i = 0) && b) := by
      cases b
      · simp
      · have small : i < 8 := hi
        interval_cases i <;> rfl
    simp only [byteOfBits, List.foldr_cons, BitVec.getLsbD_or, BitVec.getLsbD_shiftLeft, first]
    cases i with
    | zero => simp
    | succ i =>
      have rest := ih (i := i) (by omega)
      simp only [byteOfBits] at rest
      simp [hi, rest]

theorem byteOfBits_range_getLsbD (f : Nat → Bool) {i : Nat} (hi : i < 8) :
    (byteOfBits ((List.range 8).map f)).getLsbD i = f i := by
  rw [byteOfBits_getLsbD _ hi, List.getD_eq_getElem?_getD]
  simp [hi]

theorem bitsOf_byteOfBits (f : Nat → Bool) : bitsOf (byteOfBits ((List.range 8).map f)) = (List.range 8).map f :=
  List.map_congr_left fun _ hi => byteOfBits_range_getLsbD f (List.mem_range.1 hi)

/-- A register that takes its own top bits is shifted out: nothing is added to it. -/
theorem crcBit_own_bits (r : BitVec 16) {k : Nat} :
    ∀ n, k + n ≤ 16 → ((List.range n).map fun i => r.getLsbD (15 - k - i)).foldl crcBit (r <<< k) = r <<< (k + n) := by
  intro n
  induction n with
  | zero => exact fun _ => rfl
  | succ n ih =>
    intro hn
    have top : (r <<< (k + n)).msb = r.getLsbD (15 - k - n) := by
      rw [BitVec.msb_eq_getLsbD_last, BitVec.getLsbD_shiftLeft]
      simp only [show 16 - 1 < 16 from by decide, show ¬ 16 - 1 < k + n by omega, decide_true, decide_false, Bool.not_false,
        Bool.true_and]
      congr 1
      omega
    rw [List.range_succ, List.map_append, List.foldl_append, ih (by omega)]
    simp only [List.map_cons, List.map_nil, List.foldl_cons, List.foldl_nil, crcBit, top, bne_self_eq_false, Bool.false_eq_true,
      if_false, ← BitVec.shiftLeft_add]
    rfl

theorem crcOf_checkBytes (part : List Byte) : crcOf (part ++ checkBytes (crcOf part)) = 0#16 := by
  have high (r : BitVec 16) := crcBit_own_bits r (k := 0) 8 (by omega)
  have low (r : BitVec 16) := crcBit_own_bits r (k := 8) 8 (by omega)
  have out (r : BitVec 16) : r <<< 16 = 0#16 := BitVec.shiftLeft_eq_zero (by omega)
  have start (r : BitVec 16) : r <<< 0 = r := BitVec.shiftLeft_zero r
  rw [crcOf, List.foldl_append]
  show (checkBytes (crcOf part)).foldl crcByte (crcOf part) = _
  generalize crcOf part = r
  simp only [checkBytes, List.foldl_cons, List.foldl_nil, crcByte, bitsOf_byteOfBits]
  have top := high r
  rw [start] at top
  exact (congrArg (List.foldl crcBit · _) top).trans ((low r).trans (out r))

/-! ### What a payload carries is read back (R157) -/

theorem byteOf_value (n : Int) : ((byteOf n).toNat : Int) = n % 256 := by
  simp only [byteOf, BitVec.toNat_ofInt]
  omega

theorem byteOf_small {n : Nat} (h : n < 256) : (byteOf n).toNat = n := by
  have := byteOf_value n
  omega

theorem beValue_two {n : Int} (h : 0 ≤ n ∧ n < 65536) : beBytes 2 n = [byteOf (n / 256), byteOf n] ∧
    (beValue [byteOf (n / 256), byteOf n] : Int) = n := by
  refine ⟨by simp [beBytes, List.range_succ], ?_⟩
  have high := byteOf_value (n / 256)
  have low := byteOf_value n
  simp only [beValue, List.foldl_cons, List.foldl_nil]
  omega

theorem beValue_three {n : Int} (h : 0 ≤ n ∧ n < 16777216) :
    beBytes 3 n = [byteOf (n / 65536), byteOf (n / 256), byteOf n] ∧
      (beValue [byteOf (n / 65536), byteOf (n / 256), byteOf n] : Int) = n := by
  refine ⟨by simp [beBytes, List.range_succ], ?_⟩
  have high := byteOf_value (n / 65536)
  have mid := byteOf_value (n / 256)
  have low := byteOf_value n
  simp only [beValue, List.foldl_cons, List.foldl_nil]
  omega

/-- The codes of a payload and what they are read as. -/
theorem codes_read (m : Mode) (g : GateState) (p : PourState) (k : HaltKind) (r : HaltReason) :
    modeOfCode (byteOf (modeCode m)).toNat = some m ∧ gateOfCode (byteOf (gateCode g)).toNat = some g ∧
      gateOfCode ((byteOf (gatePourCode g p)).toNat / 16) = some g ∧ pourOfCode ((byteOf (gatePourCode g p)).toNat % 16) = some p ∧
      haltKindOfCode (byteOf (haltKindCode k)).toNat = some k ∧ haltReasonOfCode (byteOf (haltReasonCode r)).toNat = some r := by
  refine ⟨?_, ?_, ?_, ?_, ?_, ?_⟩
  · cases m <;> rfl
  · cases g <;> rfl
  · cases g <;> cases p <;> rfl
  · cases g <;> cases p <;> rfl
  · cases k <;> rfl
  · cases r <;> rfl

theorem levelFlags_read (f : LevelFlags) :
    (byteOf (levelFlagsCode f)).toNat ≤ 63 ∧ levelFlagsOf (byteOf (levelFlagsCode f)) = f := by
  obtain ⟨a, b, c, d, e, g⟩ := f
  revert a b c d e g
  decide

theorem mark_read (on : Bool) : (byteOf (if on then 1 else 0)).toNat ≤ 1 ∧ (byteOf (if on then 1 else 0)).getLsbD 0 = on := by
  cases on <;> decide

theorem bodyOf_payloadOf (body : PostBody) (h : body.fits = true) :
    bodyOf (kindCode body) (payloadOf body) = some body ∧ (payloadOf body).length ≤ 14 := by
  cases body with
  | level p =>
    obtain ⟨sector, mode, flags, height, count, gate, pour, need⟩ := p
    simp only [PostBody.fits, LevelPost.fits, needFits, maxHeight, Bool.and_eq_true, decide_eq_true_eq] at h
    obtain ⟨⟨⟨hs, hh⟩, hc⟩, hn⟩ := h
    obtain ⟨heightBytes, heightValue⟩ := beValue_three (n := height) (by omega)
    obtain ⟨needBytes, needValue⟩ := beValue_two (n := need) (by omega)
    obtain ⟨m, -, g, p, -⟩ := codes_read mode gate pour .climb .spread
    obtain ⟨f63, fs⟩ := levelFlags_read flags
    have sec := byteOf_small (n := sector) (by omega)
    have cnt := byteOf_small (n := count) (by omega)
    simp only [kindCode, payloadOf, bodyOf, levelPayload, heightBytes, needBytes, List.cons_append, List.nil_append, levelOfPayload, m, g,
      p, fs, sec, cnt, heightValue, needValue]
    refine ⟨?_, by simp⟩
    rw [if_pos ⟨hs, f63, by omega, by omega⟩]
    rfl
  | claim p =>
    obtain ⟨need, number⟩ := p
    simp only [PostBody.fits, ClaimPost.fits, needFits, Bool.and_eq_true, decide_eq_true_eq] at h
    obtain ⟨needBytes, needValue⟩ := beValue_two (n := need) (by omega)
    have num := byteOf_small (n := number) (by omega)
    simp only [kindCode, payloadOf, bodyOf, claimPayload, needBytes, List.cons_append, List.nil_append, claimOfPayload, num, needValue]
    refine ⟨?_, by simp⟩
    rw [if_pos (by omega)]
    rfl
  | gate p =>
    obtain ⟨state, need, yielded⟩ := p
    simp only [PostBody.fits, GatePost.fits, needFits, decide_eq_true_eq] at h
    obtain ⟨needBytes, needValue⟩ := beValue_two (n := need) (by omega)
    obtain ⟨-, g, -⟩ := codes_read .setup state .dry .climb .spread
    obtain ⟨y1, ys⟩ := mark_read yielded
    simp only [kindCode, payloadOf, bodyOf, gatePayload, needBytes, List.cons_append, List.nil_append, gateOfPayload, g, ys, needValue]
    refine ⟨?_, by simp⟩
    rw [if_pos ⟨by omega, y1⟩]
    rfl
  | halt p =>
    obtain ⟨-, -, -, -, k, r⟩ := codes_read .setup .closed .dry p.kind p.reason
    simp only [kindCode, payloadOf, bodyOf, haltPayload, haltOfPayload, k, r]
    exact ⟨rfl, by simp⟩
  | order payload =>
    simp only [PostBody.fits, decide_eq_true_eq] at h
    simp only [kindCode, payloadOf, bodyOf]
    exact ⟨if_pos h, by omega⟩
  | reply payload =>
    simp only [PostBody.fits, decide_eq_true_eq] at h
    simp only [kindCode, payloadOf, bodyOf]
    exact ⟨if_pos h, by omega⟩

/-! ### The frame and its judgement (R156, R161, R162) -/

theorem checkBytes_length (r : BitVec 16) : (checkBytes r).length = 2 := rfl

theorem kindCode_eq (body : PostBody) : kindCode body = kindNumber body := by cases body <;> rfl

theorem kindCode_small (body : PostBody) : kindCode body < 256 := by cases body <;> simp [kindCode]

/-- What a frame is judged by, with its parts named. -/
theorem judgePost_cons (lead sender kind len : Byte) (rest : List Byte) : judgePost (lead :: sender :: kind :: len :: rest) =
    if lead ≠ 0xC3#8 ∨ 63 < sender.toNat ∨ 14 < len.toNat ∨ rest.length < len.toNat + 2 then .framing
    else if checkOf (sender :: kind :: len :: rest.take (len.toNat + 2)) ≠ 0#16 then .check
    else
      match bodyOf kind.toNat (rest.take len.toNat) with
      | some b => .clean { sender := sender.toNat, body := b }
      | none => .framing := by
  rw [← crcOf_eq]
  rfl

theorem judgePost_frameOf {sender : Nat} {body : PostBody} (hs : sender ≤ 63) (hb : body.fits = true) :
    judgePost (frameOf sender body) = .clean { sender := sender, body := body } := by
  obtain ⟨read, short⟩ := bodyOf_payloadOf body hb
  have sent := byteOf_small (n := sender) (by omega)
  have kind := byteOf_small (kindCode_small body)
  have len := byteOf_small (n := (payloadOf body).length) (by omega)
  have residue := crcOf_checkBytes (checkedPart sender body)
  have whole : (payloadOf body ++ checkBytes (crcOf (checkedPart sender body))).take ((payloadOf body).length + 2) =
      payloadOf body ++ checkBytes (crcOf (checkedPart sender body)) :=
    List.take_of_length_le (by simp [checkBytes_length])
  rw [crcOf_eq] at residue
  have right : ¬ checkOf (byteOf sender :: byteOf (kindCode body) :: byteOf (payloadOf body).length ::
    (payloadOf body ++ checkBytes (crcOf (checkedPart sender body)))) ≠ 0#16 := not_not.2 residue
  show judgePost (0xC3#8 :: byteOf sender :: byteOf (kindCode body) :: byteOf (payloadOf body).length ::
    (payloadOf body ++ checkBytes (crcOf (checkedPart sender body)))) = _
  rw [judgePost_cons, sent, kind, len, whole, if_neg, if_neg right, List.take_left, read]
  simp only [List.length_append, checkBytes_length, ne_eq, not_true_eq_false, false_or]
  omega

/-- Settles O4: the frame carries its check, and the judgement asks its conditions in their order. -/
theorem postRoundTrip : Obligations.PostRoundTrip := by
  refine ⟨fun sender body hs hb => judgePost_frameOf hs hb, fun sender body part r hp hr => ?_, fun p => levelPayload_eq p,
    fun p => rfl, fun p => ?_, fun p => ?_, fun bytes hl => ?_, fun lead sender kind len rest =>
      ⟨fun bad => ?_, fun hl hs hn hr => ⟨fun wrong => ?_, fun right => ⟨fun refused => ?_, fun allowed => ⟨fun outside => ?_,
        fun inside => ?_⟩⟩⟩⟩⟩
  · have checked : part = checkedPart sender body := by rw [hp, ← kindCode_eq]; rfl
    rw [← crcOf_eq, checked] at hr
    refine ⟨_, _, by rw [checked]; rfl, fun i hi => ?_, fun i hi => ?_⟩
    · rw [byteOfBits_range_getLsbD _ hi, hr]
    · rw [byteOfBits_range_getLsbD _ hi, hr]
  · obtain ⟨state, need, yielded⟩ := p
    cases state <;> cases yielded <;> rfl
  · obtain ⟨kind, reason⟩ := p
    cases kind <;> cases reason <;> rfl
  · match bytes, hl with
    | [], _ | [_], _ | [_, _], _ | [_, _, _], _ => rfl
  · rw [judgePost_cons, if_pos bad]
  all_goals rw [judgePost_cons, if_neg (by simp only [hl, ne_eq, not_true_eq_false, false_or]; omega)]
  · rw [if_pos wrong]
  all_goals
    rw [if_neg (not_not.2 right)]
    have size : (rest.take len.toNat).length = len.toNat := by simp; omega
  · rw [← size] at refused
    rw [bodyOf_refused refused]
  · rw [← size] at allowed
    rw [(bodyOf_allowed allowed).1 outside]
  · rw [← size] at allowed
    obtain ⟨body, read, kept⟩ := (bodyOf_allowed allowed).2 inside
    exact ⟨body, by rw [read], kept⟩

/-! ### The access gaps (R155, R165) -/

/-- Settles O45: the gap is a class's base and a place in the cyclic order after the last sender. -/
theorem accessGaps : Obligations.AccessGaps := by
  refine ⟨fun c => rfl, fun own other last cls ho hs hl => ?_⟩
  unfold accessGap
  exact ⟨by omega, by omega, fun h => by omega, fun higher hc => by omega, by omega, by omega⟩

end Sys2Proof.Machine
end

section
/-! A step with no command waiting: one millisecond of the timers (log entry 1). -/

namespace Sys2Proof.Machine

/-- The bytes of an own post follow one another: what is left of one after a time is left over whole bytes. -/
theorem sendingPassed_byte (bitUs us : Nat) (l : Lif) (pos : 0 < bitUs) (h : l.byteLeftUs ≤ 10 * bitUs) :
    0 < (sendingPassed bitUs us l).byteLeftUs ∧ (sendingPassed bitUs us l).byteLeftUs ≤ 10 * bitUs ∧
      ∃ k, (sendingPassed bitUs us l).byteLeftUs + us = l.byteLeftUs + k * (10 * bitUs) := by
  have whole := Nat.div_add_mod' (10 * bitUs - l.byteLeftUs + us) (10 * bitUs)
  have part := Nat.mod_lt (10 * bitUs - l.byteLeftUs + us) (show 0 < 10 * bitUs by omega)
  refine ⟨?_, ?_, (10 * bitUs - l.byteLeftUs + us) / (10 * bitUs), ?_⟩ <;> simp only [sendingPassed] <;> omega

theorem bitTimeUs_pos (c : Settings) : 0 < bitTimeUs c := by
  unfold bitTimeUs
  (repeat' split) <;> omega

/-- The end of a framing error's wait (R161). -/
theorem errorPassed_eq (bitUs : Nat) (l : Lif) : errorPassed bitUs l =
    { l with rx := if l.rx = .errored ∧ 3 < l.quietUs / bitUs then .ready else l.rx } := by
  unfold errorPassed
  split <;> rfl

/-- LIF's timers after a millisecond, but for the quiet time (R161, R167, R172). -/
theorem lifPassed_eq (bitUs : Nat) (l : Lif) : lifPassed bitUs l =
    { l with
      quietUs := (lifPassed bitUs l).quietUs
      byteLeftUs := (lifPassed bitUs l).byteLeftUs
      rx := (lifPassed bitUs l).rx
      levelMs := l.levelMs.map fun n => min 500 (n + 1)
      rejoinMs := if l.muted then min 65535 (l.rejoinMs + 1) else l.rejoinMs } := by
  unfold lifPassed
  rw [errorPassed_eq]
  split <;> rfl

/-- The quiet time while the node sends. -/
theorem lifPassed_sending {bitUs : Nat} {l : Lif} (h : l.transmitter ≠ none) :
    (lifPassed bitUs l).quietUs = l.quietUs ∧ (lifPassed bitUs l).rx = l.rx ∧
      (lifPassed bitUs l).byteLeftUs = (sendingPassed bitUs 1000 l).byteLeftUs := by
  unfold lifPassed
  rw [if_pos (Option.isSome_iff_ne_none.2 h)]
  exact ⟨rfl, rfl, rfl⟩

/-- The quiet time while it does not. -/
theorem lifPassed_quiet {bitUs : Nat} {l : Lif} (h : l.transmitter = none) :
    (lifPassed bitUs l).quietUs = l.quietUs + (1000 - l.byteLeftUs) ∧ (lifPassed bitUs l).byteLeftUs = l.byteLeftUs - 1000 ∧
      (lifPassed bitUs l).rx = if l.rx = .errored ∧ 3 < (lifPassed bitUs l).quietUs / bitUs then .ready else l.rx := by
  have idle : ¬ l.transmitter.isSome = true := by simp [h]
  unfold lifPassed
  rw [if_neg idle, errorPassed_eq]
  exact ⟨rfl, rfl, rfl⟩

theorem srsPassed_eq (r : Srs) :
    srsPassed r = { r with joinMs := if r.step = .joinListen then min 2000 (r.joinMs + 1) else r.joinMs } := by
  unfold srsPassed
  split <;> rfl

/-- Settles O1: the queue's front is `step`'s, and the idle millisecond is `idleTick`'s, timer by timer. -/
theorem stepTakesFront : Obligations.StepTakesFront := by
  refine ⟨fun c rest s h => by rw [step, h], fun s h => ⟨idleTick s, by rw [step, h], fun down => ?_, fun up => ?_⟩,
    fun s => ⟨decide_eq_true_iff, blocksRun_iff s⟩, fun s nbits w => ⟨rfl, rfl⟩⟩
  · have line : ¬ lineRuns s = true := by simp [lineRuns, down]
    have blocks : ¬ blocksRun s = true := fun hb => down ((blocksRun_iff s).1 hb).1
    simp only [idleTick, line, blocks, if_false, Bool.false_eq_true]
  have line : lineRuns s = true := decide_eq_true up
  have passed : idleTick s = if blocksRun s then
      blocksPassed ((s.setLif (lifPassed (bitTimeUs s.srs.active) s.lif)).setSrs (srsPassed s.srs))
    else (s.setLif (lifPassed (bitTimeUs s.srs.active) s.lif)).setSrs (srsPassed s.srs) := by
    simp only [idleTick, line, if_true]
  have lif : (idleTick s).lif = lifPassed (bitTimeUs s.srs.active) s.lif := by rw [passed]; split <;> rfl
  have srs : (idleTick s).srs = srsPassed s.srs := by rw [passed]; split <;> rfl
  rw [lif]
  refine ⟨srs.trans (srsPassed_eq _), lifPassed_eq _ _, fun sends => ?_, fun quiet => lifPassed_quiet quiet, fun waits => ?_, fun runs => ?_⟩
  · obtain ⟨same, rx, left⟩ := lifPassed_sending (bitUs := bitTimeUs s.srs.active) sends
    rw [left]
    exact ⟨same, rx, sendingPassed_byte _ _ _ (bitTimeUs_pos _)⟩
  · have blocks : ¬ blocksRun s = true := by simp [blocksRun, waits]
    rw [srs, passed, if_neg blocks]
  · have blocks : blocksRun s = true := (blocksRun_iff s).2 ⟨up, runs⟩
    have active : (srsPassed s.srs).active = s.srs.active := by rw [srsPassed_eq]
    rw [passed, if_pos blocks]
    refine ⟨rfl, List.length_map .., fun i p hp => ?_, rfl, ?_, ?_, rfl, rfl, rfl, rfl, rfl, rfl, rfl, rfl, rfl⟩
    · show (s.pvw.peers.map peerPassed)[i]? = _
      rw [List.getElem?_map, hp]
      rfl
    · simp only [blocksPassed, State.setSrs_srs, active]
      rfl
    · have sent : (s.fct.ownClaim.map OwnClaim.sent).getD false = true ↔ s.fct.ownClaim.map OwnClaim.sent = some true := by
        cases s.fct.ownClaim <;> simp
      simp only [blocksPassed, State.setSrs_srs, active, fctPassed, State.setSrs_fct, State.setLif_fct, sent]
      rfl

end Sys2Proof.Machine
end

section
/-! The layer column (spec chapter 1): its times, and a pour's opening and ending. -/

namespace Sys2Proof.Machine

/-! ### The probe nearest a record (R14) -/

/-- At depth `d` probe `a` is chosen before `b`, or is as good: nearer, and the shallower where they are equally near. -/
structure Preferred (d : Int) (a b : Probe) : Prop where
  near : (d - a.1).natAbs ≤ (d - b.1).natAbs
  shallow : (d - b.1).natAbs = (d - a.1).natAbs → a.1 ≤ b.1

theorem Preferred.refl (d : Int) (a : Probe) : Preferred d a a := ⟨le_rfl, fun _ => le_rfl⟩

theorem Preferred.trans {d : Int} {a b c : Probe} (h : Preferred d a b) (k : Preferred d b c) : Preferred d a c := by
  obtain ⟨near, shallow⟩ := h
  obtain ⟨near', shallow'⟩ := k
  exact ⟨by omega, fun e => (shallow (by omega)).trans (shallow' (by omega))⟩

theorem nearer_preferred (d : Int) (a b : Probe) :
    (nearer d a b = a ∨ nearer d a b = b) ∧ Preferred d (nearer d a b) a ∧ Preferred d (nearer d a b) b := by
  unfold nearer
  split
  · next h => exact ⟨.inr rfl, ⟨by omega, by omega⟩, .refl d b⟩
  split
  · next h => exact ⟨.inr rfl, ⟨by omega, by omega⟩, .refl d b⟩
  · next h => exact ⟨.inl rfl, .refl d a, ⟨by omega, fun e => by omega⟩⟩

theorem foldl_nearer (d : Int) (ps : List Probe) (p : Probe) :
    (ps.foldl (nearer d) p = p ∨ ps.foldl (nearer d) p ∈ ps) ∧ Preferred d (ps.foldl (nearer d) p) p ∧
      ∀ q ∈ ps, Preferred d (ps.foldl (nearer d) p) q := by
  induction ps generalizing p with
  | nil => exact ⟨.inl rfl, .refl d p, nofun⟩
  | cons x xs ih =>
    obtain ⟨which, first, others⟩ := ih (nearer d p x)
    obtain ⟨one, overP, overX⟩ := nearer_preferred d p x
    rw [List.foldl_cons]
    refine ⟨?_, first.trans overP, fun q hq => ?_⟩
    · rcases which with h | h
      · rw [h]
        exact one.imp id fun e => by rw [e]; exact List.mem_cons_self ..
      · exact .inr (List.mem_cons_of_mem _ h)
    · rcases List.mem_cons.1 hq with rfl | hq
      · exact first.trans overX
      · exact others q hq

/-- The probe chosen is one of the candidates, and preferred to each. -/
theorem chosenProbe_preferred (d : Int) {ps : List Probe} (h : ps ≠ []) :
    ∃ p ∈ ps, chosenProbe d ps = some p ∧ ∀ q ∈ ps, Preferred d p q := by
  cases ps with
  | nil => exact absurd rfl h
  | cons x xs =>
    obtain ⟨which, first, others⟩ := foldl_nearer d xs x
    refine ⟨_, ?_, rfl, fun q hq => ?_⟩
    · rcases which with h | h
      · rw [h]; exact List.mem_cons_self ..
      · exact List.mem_cons_of_mem _ h
    · rcases List.mem_cons.1 hq with rfl | hq
      · exact first
      · exact others q hq

theorem mem_probesOf (c : Settings) (t : ChanTable) (p : Int × Int) :
    p ∈ probesOf c t ↔
      ∃ e, e.state = .good ∧ e.value = some p.2 ∧
        (p.1, e) ∈ [(c.probe1, t.t1), (c.probe2, t.t2), (c.probe3, t.t3), (c.probe4, t.t4)] := by
  have good (e : ChanEntry) : isGood e = true ↔ e.state = .good := by simp [isGood]
  unfold probesOf
  rw [List.mem_filterMap]
  constructor
  · rintro ⟨⟨depth, e⟩, hm, hp⟩
    split at hp
    · next hg =>
      obtain ⟨v, hv, rfl⟩ := Option.map_eq_some_iff.1 hp
      exact ⟨e, (good e).1 hg, hv, hm⟩
    · cases hp
  · rintro ⟨e, hg, hv, hm⟩
    exact ⟨_, hm, by simp [(good e).2 hg, hv]⟩

theorem exec_tick {s : State} (runs : blocksRun s = true) : exec .tick s =
    .next (s.setLco (tickColumn s.ssq.height s.srs.active.formHeight s.srs.active.datum s.srs.active.fallback
      (probesOf s.srs.active s.msq.table) s.lco)) :=
  congrArg Host.Outcome.next (if_pos runs)

/-- Settles O35: the gain of each record is that of its chosen probe. -/
theorem columnTimes : Obligations.ColumnTimes := by
  refine ⟨mem_probesOf, fun s runs => ⟨⟨_, exec_tick runs, rfl, List.length_map .., fun i r hr => ⟨fun none => ?_,
    fun some => ?_⟩⟩, ?_⟩⟩
  · show (s.lco.column.map _)[i]? = _
    rw [List.getElem?_map, hr, none]
    rfl
  · obtain ⟨p, hp, chosen, best⟩ := chosenProbe_preferred (midDepth s.ssq.height s.srs.active.formHeight r) some
    refine ⟨p, hp, fun q hq => ⟨(best q hq).near, (best q hq).shallow⟩, ?_⟩
    show (s.lco.column.map _)[i]? = _
    rw [List.getElem?_map, hr]
    simp only [Option.map_some, tickLayer, chosen]
    rfl
  · have pouring : anyPouring s.lco = true ↔ ∃ r ∈ s.lco.column, r.state = .pouring := by simp [anyPouring]
    show execPourDurationCount s = _
    simp only [execPourDurationCount, runs, pouring, true_and]
    rfl

/-! ### A pour's opening (R3 to R5) -/

/-- The id that the search finds is the first free one in the order of the search. -/
theorem freeIdFrom_first (ids : List Nat) {fuel id : Nat} (hid : id < 65536) :
    ∃ k, freeIdFrom ids fuel id = (id + k) % 65536 ∧ ∀ j, j < k → (id + j) % 65536 ∈ ids := by
  induction fuel generalizing id with
  | zero => exact ⟨0, (Nat.mod_eq_of_lt hid).symm, nofun⟩
  | succ n ih =>
    unfold freeIdFrom
    split
    · next taken =>
      obtain ⟨k, hk, before⟩ := ih (id := (id + 1) % 65536) (Nat.mod_lt _ (by omega))
      refine ⟨k + 1, by rw [hk]; omega, fun j hj => ?_⟩
      cases j with
      | zero => rwa [Nat.add_zero, Nat.mod_eq_of_lt hid]
      | succ j =>
        have := before j (by omega)
        rwa [show ((id + 1) % 65536 + j) % 65536 = (id + (j + 1)) % 65536 by omega] at this
    · exact ⟨0, (Nat.mod_eq_of_lt hid).symm, nofun⟩

theorem anyPouring_false {l : Lco} (h : ∀ r ∈ l.column, r.state ≠ .pouring) : anyPouring l = false := by
  simpa [anyPouring] using h

/-! ### A pour's end (R7 to R9) -/

/-- Along a column in order the tops rise from its oldest record on. -/
theorem ColumnInOrder.top_le {r : Layer} {rest : List Layer} (h : ColumnInOrder (r :: rest)) : ∀ x ∈ r :: rest, r.top ≤ x.top := by
  induction rest generalizing r with
  | nil => simp
  | cons y ys ih =>
    have younger : ColumnInOrder (y :: ys) := ColumnInOrder.of_suffix (a := [r]) h
    have joined : y.bottom = r.top := h.contiguous 0 r y rfl rfl
    have upright := (h.heights y (by simp)).2.1
    intro x hx
    rcases List.mem_cons.1 hx with rfl | hx
    · exact le_rfl
    · have := ih younger x hx
      omega

/-- What the release pass keeps of a column in order without a POURING record lies above own height, and is EXITING where it starts
at or below. -/
theorem releasePass_above {own : Int} {l : Lco} (h : ColumnInOrder l.column) (calm : ∀ r ∈ l.column, r.state ≠ .pouring) :
    ∀ x ∈ (releasePass own l).column, own < x.top ∧ x.state ≠ .pouring ∧ (x.bottom ≤ own → x.state = .exiting) := by
  obtain ⟨gone, parts, -, head⟩ := dropReleased_parts own l.column
  have order : ColumnInOrder (dropReleased own l.column) := ColumnInOrder.of_suffix (a := gone) (parts ▸ h)
  intro x hx
  obtain ⟨y, hy, rfl⟩ := List.mem_map.1 hx
  have still : y.state ≠ .pouring := calm y (by rw [parts]; exact List.mem_append_right _ hy)
  have above : own < y.top := by
    cases hk : dropReleased own l.column with
    | nil => rw [hk] at hy; cases hy
    | cons r rest =>
      rw [hk] at order hy
      have first : r.state ≠ .pouring := calm r (by rw [parts, hk]; simp)
      exact ((head r rest hk).resolve_left first).trans_le (order.top_le y hy)
  unfold markExiting
  by_cases hb : y.bottom ≤ own
  · simp [still, hb, above]
  · simp [still, hb, above]

/-- Settles O37: opening, ending, release and shift, each by its own lemma. -/
theorem pourLayers : Obligations.PourLayers := by
  refine ⟨releasePass_spec, shiftColumn_spec, fun own lMin reason l order counter => ⟨fun calm room => ?_,
    fun older y hc calm full => ?_, fun ⟨r, hr, hp⟩ => ?_, fun calm => endLayer_calm calm, fun older r hc hp =>
      ⟨(endLayer_spec own lMin reason l older r hc hp).1, (endLayer_spec own lMin reason l older r hc hp).2, ?_⟩⟩⟩
  · refine ⟨newPouring own l, ?_, rfl, allocatedId_fresh ⟨order, counter⟩, freeIdFrom_first _ counter, rfl⟩
    simp only [openLayer, anyPouring_false calm, Bool.false_eq_true, if_false, room, if_true]
    rfl
  · simp only [openLayer, anyPouring_false calm, Bool.false_eq_true, if_false, full, Nat.lt_irrefl]
    simp [youngest, hc, reopened]
  · have pouring : anyPouring l = true := by simp only [anyPouring, List.any_eq_true, decide_eq_true_eq]; exact ⟨r, hr, hp⟩
    simp only [openLayer, pouring, if_true]
  · have ends : endLayer own lMin reason l =
        releasePass own { l with column := endedColumn own lMin reason l older r, depthRef := none } := by
      simp [endLayer, youngest, hc, hp]
    obtain ⟨kept, calm⟩ := endedColumn_order (own := own) (lMin := lMin) (reason := reason) (l := l) (hc ▸ order)
    rw [ends]
    exact releasePass_above kept calm

end Sys2Proof.Machine
end

section
/-! The peer view (spec chapter 2): the posts it takes, its times, and the signals it gives to the feed. -/

namespace Sys2Proof.Machine

/-! ### The table after an entry is put (R27, R31) -/

theorem mem_putPeer {p x : Peer} {t : List Peer} : x ∈ putPeer p t ↔ (x ∈ t ∧ x.station ≠ p.station) ∨ x = p := by
  simp [putPeer, mem_insertPeer, removePeer, or_comm]

theorem putPeer_at {e p x : Peer} {n : Nat} {t : List Peer} (h : findPeer n t = some e) (hp : p.station = e.station) :
    x ∈ putPeer p t ↔ (x ∈ t ∧ x.station ≠ n) ∨ x = p := by
  rw [mem_putPeer, hp, (findPeer_mem h).2]

theorem findPeer_put {e p : Peer} {n : Nat} {t : List Peer} (h : findPeer n t = some e) (hp : p.station = e.station) :
    findPeer n (putPeer p t) = some p := by
  rw [← (findPeer_mem h).2, ← hp]
  exact findPeer_putPeer p t

theorem levelUpdate_station (p : LevelPost) (e : Peer) : (levelUpdate p e).station = e.station := by
  unfold levelUpdate needIfOpen levelFields
  (repeat' split) <;> rfl

/-- The entry that a LEVEL post leaves (R31, R34). -/
theorem levelUpdate_eq (p : LevelPost) {e : Peer} {n : Nat} (h : e.station = n) : levelUpdate p e =
    { station := n, sector := p.sector, height := p.height, heightValid := p.flags.heightValid, mode := p.mode,
      strokeCount := p.strokeCount, gate := p.gate, pour := p.pour, need := p.need,
      needAtOpen := if p.gate = .closed then none else e.needAtOpen,
      claim := if p.gate = .closed ∧ p.pour = .claiming then e.claim else none, ageMs := 0 } := by
  subst h
  by_cases hg : p.gate = .closed <;> by_cases hp : p.pour = .claiming <;> simp [levelUpdate, needIfOpen, levelFields, hg, hp]

/-! ### The clash test and the signals (R39, R44) -/

theorem reduceSafe_safe (f : SafeSet) (s : State) : (reduceSafe f s).mct.safe = f := by
  unfold reduceSafe
  split
  · next h => exact h.symm
  · rw [afterCauses_mct]; rfl

/-- The SAFE cause follows the condition where it changes (R39, R141, R142). -/
theorem retestClash_cause (y : State) :
    (y.pvw.sectorClash = false → (retestClash y).pvw.sectorClash = true → (retestClash y).mct.safe.sectorClash = true) ∧
      (y.pvw.sectorClash = true → (retestClash y).pvw.sectorClash = false → (retestClash y).mct.safe.sectorClash = false) := by
  rw [retestClash_pvw]
  refine ⟨fun was now => ?_, fun was now => ?_⟩
  · have put : retestClash y = addSafe .sectorClash (y.setPvw { y.pvw with sectorClash := true }) := by
      simp only at now
      simp [retestClash, now, was]
    rw [put, (addSafe_mct _ _).1]
    rfl
  · have left : retestClash y = removeSafe .sectorClash (y.setPvw { y.pvw with sectorClash := false }) := by
      simp only at now
      simp [retestClash, now, was]
    rw [left, removeSafe, reduceSafe_safe]
    rfl

/-- Out of POURING and WANT the signals change nothing (R102, R108, R110). -/
theorem signalFeed_idle (a b : Bool) {s : State} (hp : s.fct.pour ≠ .pouring) (hw : s.fct.pour ≠ .want) : signalFeed a b s = s := by
  simp [signalFeed, hp, hw]

/-- Out of POURING a table change alone changes nothing (R110). -/
theorem signalFeed_table {s : State} (hp : s.fct.pour ≠ .pouring) : signalFeed true false s = s := by
  simp [signalFeed, hp]

/-- The table replaced, the clash test and the signals, one after the other. -/
def tableChanged (a b : Bool) (y : State) : State := signalFeed a b (retestClash y)

theorem tableChanged_pvw (a b : Bool) (y : State) : (tableChanged a b y).pvw =
    { y.pvw with sectorClash := sectorClashes (ownStation y) (sectorOf y.srs.active) y.pvw.peers } := by
  rw [tableChanged, (signalFeed_frame _ _ _).1, retestClash_pvw]

/-- With the condition as it was, the clash test changes nothing. -/
theorem tableChanged_same (a b : Bool) {y : State}
    (h : sectorClashes (ownStation y) (sectorOf y.srs.active) y.pvw.peers = y.pvw.sectorClash) :
    tableChanged a b y = signalFeed a b y := by
  rw [tableChanged, retestClash_same y h]

/-- What the clash test and the signals change of the blocks beside PVW and the feed. -/
theorem tableChanged_tested (a b : Bool) (y : State) :
    ∃ u, clashTested y u ∧ (tableChanged a b y).mct = u.mct ∧ (tableChanged a b y).ssq = u.ssq ∧ (tableChanged a b y).msq = u.msq ∧
      (tableChanged a b y).ors = u.ors ∧ (u.fct.pour ≠ .pouring → u.fct.pour ≠ .want → tableChanged a b y = u) := by
  unfold tableChanged
  exact ⟨retestClash y, retestClash_spec y, by simp, by simp, by simp, by simp, signalFeed_idle a b⟩

theorem tableChanged_frame (a b : Bool) (y : State) :
    (tableChanged a b y).lif.fifo = y.lif.fifo ∧ (tableChanged a b y).ssq.height = y.ssq.height ∧
      (tableChanged a b y).ssq.heightValid = y.ssq.heightValid ∧ (tableChanged a b y).cpl = y.cpl ∧ (tableChanged a b y).srs = y.srs ∧
      (tableChanged a b y).ldr = y.ldr ∧ (tableChanged a b y).pins = y.pins := by
  simp [tableChanged]

theorem tableChanged_cause (a b : Bool) (y : State) :
    (y.pvw.sectorClash = false → (tableChanged a b y).pvw.sectorClash = true → (tableChanged a b y).mct.safe.sectorClash = true) ∧
      (y.pvw.sectorClash = true → (tableChanged a b y).pvw.sectorClash = false →
        (tableChanged a b y).mct.safe.sectorClash = false) := by
  simpa [tableChanged] using retestClash_cause y

/-! ### LEVEL posts (R29 to R31) -/

variable {sender : Nat} {rest : List RxPost} {s : State}

theorem PostTaken.station {body : PostBody} (h : PostTaken sender body rest s) : isPeerStation sender = true := decide_eq_true h.peer

theorem PostTaken.inRing {body : PostBody} {n : Nat} (h : PostTaken sender body rest s) (hr : n < ringOf s.srs.active) :
    ¬ (isPeerStation sender = false ∨ ringOf (removed rest s).srs.active ≤ n) := by
  rintro (f | f)
  · rw [h.station] at f
    cases f
  · exact absurd hr (Nat.not_lt.2 f)

/-- A LEVEL post that PVW takes. -/
theorem exec_levelTaken {p : LevelPost} (h : PostTaken sender (.level p) rest s) :
    exec (.levelTaken sender p) s = .next (takeLevel sender p (removed rest s)) := by
  show execLevelTaken sender p s = _
  rw [execLevelTaken, takePost_taken h]

/-- A LEVEL post of a sector of the ring and of a station with an entry, or with room for one. -/
theorem takeLevel_entry {p : LevelPost} {e : Peer} (h : PostTaken sender (.level p) rest s) (hr : p.sector < ringOf s.srs.active)
    (he : findPeer sender s.pvw.peers = some e) : takeLevel sender p (removed rest s) =
      tableChanged (feedPartChanged e (levelUpdate p e)) (decide ((e.gate = .closed) ≠ ((levelUpdate p e).gate = .closed)))
        ((removed rest s).setPvw { s.pvw with peers := putPeer (levelUpdate p e) s.pvw.peers }) := by
  have inRing := h.inRing hr
  have found : findPeer sender (removed rest s).pvw.peers = some e := he
  unfold takeLevel
  rw [if_neg inRing, found]
  rfl

theorem takeLevel_new {p : LevelPost} (h : PostTaken sender (.level p) rest s) (hr : p.sector < ringOf s.srs.active)
    (he : findPeer sender s.pvw.peers = none) : takeLevel sender p (removed rest s) =
      if s.pvw.peers.length < 47 then
        tableChanged (decide (p.gate ≠ .closed)) (decide (p.gate ≠ .closed))
          ((removed rest s).setPvw { s.pvw with peers := insertPeer (newPeer sender p) s.pvw.peers })
      else (removed rest s).setPvw { s.pvw with tableFull := true } := by
  have inRing := h.inRing hr
  have unknown : findPeer sender (removed rest s).pvw.peers = none := he
  unfold takeLevel
  rw [if_neg inRing, unknown]
  rfl

/-- Whatever entry a LEVEL post makes, the table is replaced, the clash tested and the feed signalled. -/
theorem takeLevel_tableChanged {p : LevelPost} (h : PostTaken sender (.level p) rest s) (hr : p.sector < ringOf s.srs.active)
    (room : (findPeer sender s.pvw.peers).isSome = true ∨ s.pvw.peers.length < 47) :
    ∃ a b peers, takeLevel sender p (removed rest s) = tableChanged a b ((removed rest s).setPvw { s.pvw with peers := peers }) := by
  cases he : findPeer sender s.pvw.peers with
  | some e => exact ⟨_, _, _, takeLevel_entry h hr he⟩
  | none =>
    rw [he] at room
    rw [takeLevel_new h hr he, if_pos (room.resolve_left (by simp))]
    exact ⟨_, _, _, rfl⟩

/-- A post of the own number, or from outside the peers' stations, is taken by none of the three. -/
theorem exec_levelTaken_own (p : LevelPost) (h : sender = ownStation s) : exec (.levelTaken sender p) s = .next s := by
  show execLevelTaken sender p s = _
  rw [execLevelTaken, takePost_own _ h]

theorem exec_levelTaken_outside {p : LevelPost} (h : PostOutside sender (.level p) rest s) :
    exec (.levelTaken sender p) s = .next (removed rest s) := by
  obtain ⟨taken, outside⟩ := takePost_outside h
  show execLevelTaken sender p s = _
  rw [execLevelTaken, taken]
  simp only [takeLevel, outside, true_or, if_true]

/-- Settles O38: the entry put, and then `tableChanged`. -/
theorem levelTaken : Obligations.LevelTaken := by
  refine fun sender p rest s => ⟨exec_levelTaken_own p, exec_levelTaken_outside, fun h =>
    ⟨_, exec_levelTaken h, fun out => ?_, fun hr => ⟨fun he full => ?_, fun room => ?_, fun he room x => ?_, fun e he x => ?_⟩⟩⟩
  · have away : isPeerStation sender = false ∨ ringOf (removed rest s).srs.active ≤ p.sector := .inr out
    rw [takeLevel, if_pos away]
  · rw [takeLevel_new h hr he, if_neg (Nat.not_lt.2 full)]
  · obtain ⟨a, b, peers, ht⟩ := takeLevel_tableChanged h hr room
    have same (y : State) (hc : sectorClashes (ownStation y) (sectorOf y.srs.active) y.pvw.peers = y.pvw.sectorClash)
      (hp : y.fct.pour ≠ .pouring) (hw : y.fct.pour ≠ .want) : tableChanged a b y = y := by
      rw [tableChanged_same a b hc, signalFeed_idle a b hp hw]
    rw [ht, tableChanged_pvw]
    obtain ⟨added, left⟩ := tableChanged_cause a b ((removed rest s).setPvw { s.pvw with peers := peers })
    rw [tableChanged_pvw] at added left
    exact ⟨rfl, rfl, rfl, added, left, tableChanged_tested a b _, fun hc hp hw => same _ hc hp hw, tableChanged_frame a b _⟩
  · rw [takeLevel_new h hr he, if_pos room, tableChanged_pvw]
    show x ∈ insertPeer (newPeer sender p) s.pvw.peers ↔ _
    rw [mem_insertPeer, or_comm]
    rfl
  · rw [takeLevel_entry h hr he, tableChanged_pvw, ← levelUpdate_eq p (findPeer_mem he).2]
    exact putPeer_at he (levelUpdate_station p e)

/-! ### CLAIM and GATE posts (R32 to R34) -/

theorem peerOf_taken {body : PostBody} (h : PostTaken sender body rest s) :
    peerOf sender (removed rest s) = findPeer sender s.pvw.peers := by
  unfold peerOf
  rw [if_pos h.station]
  rfl

theorem exec_claimTaken {p : ClaimPost} (h : PostTaken sender (.claim p) rest s) :
    exec (.claimTaken sender p) s = .next (match findPeer sender s.pvw.peers with
      | some e => signalFeed true false ((removed rest s).setPvw { s.pvw with peers := putPeer (claimUpdate p e) s.pvw.peers })
      | none => removed rest s) := by
  show execClaimTaken sender p s = _
  rw [execClaimTaken, takePost_taken h]
  simp only [takeClaim, peerOf_taken h]
  rfl

theorem exec_gateTaken {p : GatePost} (h : PostTaken sender (.gate p) rest s) :
    exec (.gateTaken sender p) s = .next (match findPeer sender s.pvw.peers with
      | some e =>
        tableChanged (feedPartChanged e (gateUpdate p e)) (decide ((e.gate = .closed) ≠ ((gateUpdate p e).gate = .closed)))
          ((removed rest s).setPvw { s.pvw with peers := putPeer (gateUpdate p e) s.pvw.peers })
      | none => removed rest s) := by
  show execGateTaken sender p s = _
  rw [execGateTaken, takePost_taken h]
  simp only [takeGate, peerOf_taken h]
  rfl

theorem peerOf_outside (h : isPeerStation sender = false) (s : State) : peerOf sender s = none := by
  simp [peerOf, h]

/-- Settles O39: a claim is a table change without a clash test, a gate's change is one with it. -/
theorem claimAndGateTaken : Obligations.ClaimAndGateTaken := by
  intro sender rest s
  refine ⟨fun p q h => ⟨?_, ?_⟩, fun p h => ?_, fun p h => ?_, fun p h => ⟨_, exec_claimTaken h, fun hn => ?_, fun e he => ?_⟩,
    fun p h => ⟨_, exec_gateTaken h, fun hn => ?_, fun e he => ?_⟩⟩
  · show execClaimTaken sender p s = _
    rw [execClaimTaken, takePost_own _ h]
  · show execGateTaken sender q s = _
    rw [execGateTaken, takePost_own _ h]
  · obtain ⟨taken, outside⟩ := takePost_outside h
    show execClaimTaken sender p s = _
    rw [execClaimTaken, taken]
    simp only [takeClaim, peerOf_outside outside]
  · obtain ⟨taken, outside⟩ := takePost_outside h
    show execGateTaken sender p s = _
    rw [execGateTaken, taken]
    simp only [takeGate, peerOf_outside outside]
  · rw [hn]
  · simp only [he]
    have table : (signalFeed true false ((removed rest s).setPvw { s.pvw with peers := putPeer (claimUpdate p e) s.pvw.peers })).pvw =
      { s.pvw with peers := putPeer (claimUpdate p e) s.pvw.peers } := (signalFeed_frame _ _ _).1
    rw [table]
    refine ⟨fun x => putPeer_at he rfl, ?_, ?_, ?_, ?_, ?_, ?_, ?_, fun hp => signalFeed_table hp⟩
    · rw [signalFeed_fifo]; rfl
    all_goals simp [removed]
  · rw [hn]
  · simp only [he]
    generalize feedPartChanged e (gateUpdate p e) = a
    generalize decide ((e.gate = .closed) ≠ ((gateUpdate p e).gate = .closed)) = b
    obtain ⟨fifo, height, -, cpl, srs, -, -⟩ := tableChanged_frame a b
      ((removed rest s).setPvw { s.pvw with peers := putPeer (gateUpdate p e) s.pvw.peers })
    rw [tableChanged_pvw]
    refine ⟨fun x => putPeer_at he rfl, fifo, height, cpl, srs, fun same => ?_⟩
    rw [tableChanged_same a b same]
    refine ⟨by simp [removed], by simp [removed], by simp [removed], by simp [removed], fun hp hw => signalFeed_idle a b hp hw⟩

/-! ### The times of an entry (R34 to R36) -/

theorem exec_claimLapse {station : Nat} {e : Peer} (runs : blocksRun s = true) (he : findPeer station s.pvw.peers = some e) :
    exec (.claimLapse station) s = .next (if e.claim.isSome = true then
      signalFeed true false (s.setPvw { s.pvw with peers := putPeer { e with claim := none } s.pvw.peers }) else s) := by
  show execClaimLapse station s = _
  simp only [execClaimLapse, he, runs, true_and]
  rfl

theorem exec_peerDrop {station : Nat} {e : Peer} (runs : blocksRun s = true) (he : findPeer station s.pvw.peers = some e) :
    exec (.peerDrop station) s = .next (tableChanged (decide (e.gate ≠ .closed)) (decide (e.gate ≠ .closed))
      (s.setPvw { s.pvw with peers := removePeer station s.pvw.peers, tableFull := false })) := by
  show execPeerDrop station s = _
  simp only [execPeerDrop, he, runs, if_true, dropPeer, (findPeer_mem he).2]
  rfl

/-- Settles O40: a lapse and an ageing put the entry, a drop takes it out. -/
theorem peerTimes : Obligations.PeerTimes := by
  refine fun station e s runs he => ⟨⟨_, exec_claimLapse runs he, fun none => by simp [none], fun some => ?_⟩,
    ⟨s.setPvw { s.pvw with peers := putPeer { e with ageMs := max e.ageMs 2000 } s.pvw.peers }, ?_, rfl, fun x => putPeer_at he rfl,
      fun x hx hs => ?_⟩, _, exec_peerDrop runs he, ?_⟩
  · have claimed : e.claim.isSome = true := Option.isSome_iff_ne_none.2 some
    rw [if_pos claimed]
    have table : (signalFeed true false (s.setPvw { s.pvw with peers := putPeer { e with claim := none } s.pvw.peers })).pvw =
      { s.pvw with peers := putPeer { e with claim := none } s.pvw.peers } := (signalFeed_frame _ _ _).1
    rw [table]
    exact ⟨fun x => putPeer_at he rfl, by simp, by simp, by simp, fun hp => signalFeed_table hp⟩
  · show execPeerStale station s = _
    simp only [execPeerStale, he, runs, if_true]
    rfl
  · obtain ⟨-, other⟩ | rfl := (putPeer_at (p := { e with ageMs := max e.ageMs 2000 }) he rfl).1 hx
    · exact absurd hs other
    · exact le_max_right _ _
  · generalize hb : decide (e.gate ≠ .closed) = b
    obtain ⟨-, height, -, cpl, srs, -, -⟩ := tableChanged_frame b b
      (s.setPvw { s.pvw with peers := removePeer station s.pvw.peers, tableFull := false })
    have left := (tableChanged_cause b b (s.setPvw { s.pvw with peers := removePeer station s.pvw.peers, tableFull := false })).2
    rw [tableChanged_pvw] at left
    rw [tableChanged_pvw]
    refine ⟨fun x => by simp [removePeer], rfl, rfl, left, tableChanged_tested b b _, height, cpl, srs, fun same => ?_⟩
    rw [tableChanged_same b b same]
    refine ⟨by simp, by simp, by simp, fun closed => ?_⟩
    have calm : b = false := by rw [← hb]; simp [closed]
    rw [calm]
    rfl

/-! ### The signals (R44, R102, R108, R110) -/

/-- A pour that yields leaves WANT aside: its gate closes first, and BACKOFF comes next (R109, R111). -/
theorem pourEndsTo_yielded {f : Fct} {s t : State} (h : pourEndsTo .yielded true f s t) (hy : f.yieldMark = true) :
    t.fct.pour ≠ .want := by
  obtain ⟨other, moving⟩ := h
  by_cases hg : f.gate = .opening ∨ f.gate = .opened
  · obtain ⟨off, on⟩ := moving hg
    cases hc : s.pins.gateClosedLimit with
    | false =>
      rw [off hc]
      simp [pourEnded]
    | true =>
      obtain ⟨v, rfl, back, -⟩ := on hc
      rw [back hy]
      simp
  · rw [other (fun h => hg (.inl h)) fun h => hg (.inr h)]
    simp

/-- The yield test in the terms of R110. -/
theorem yieldTest_spec (s : State) :
    (s.srs.active.gateLimit < 1 + openGates s + jammedGates s ∧ s.srs.active.gateLimit - closingGates s < ownGateRank s →
        pourEndsTo .yielded true
          { s.fct with
            yieldMark := true
            pendingBackoff := some (2000 + 250 * (ownGateRank s - max 0 (s.srs.active.gateLimit - closingGates s))).toNat }
          s (yieldTest s)) ∧
      (¬ (s.srs.active.gateLimit < 1 + openGates s + jammedGates s ∧ s.srs.active.gateLimit - closingGates s < ownGateRank s) →
        yieldTest s = s) := by
  have pumps : (pumpGates s.pvw.peers : Int) = 1 + openGates s + jammedGates s := by
    rw [pumpGates_eq]
    push_cast
    rfl
  have closing : closingCount s.pvw.peers = closingGates s := rfl
  unfold yieldTest
  simp only [pumps, closing, gateRank_eq]
  refine ⟨fun h => ?_, fun h => if_neg h⟩
  rw [if_pos h]
  exact endPour_spec .yielded _ s

/-- Settles O41: the yield test and the claim are the two signals' effects; each event of the table gives them after the clash test. -/
theorem feedSignals : Obligations.FeedSignals := by
  refine ⟨fun own sector peers => by simp [sectorClashes], fun s => ⟨fun hp b => ?_, fun hw a => ?_,
    fun hp hw a b => signalFeed_idle a b hp hw, fun sender rest e he => ⟨fun p h hr => ?_, fun p h => ?_, fun p h => ?_,
      fun runs claimed => ?_, fun runs => ?_⟩, fun sender p rest hn h hr room => ?_⟩⟩
  · have first : signalFeed true b s = if b = true ∧ (yieldTest s).fct.pour = .want then tryClaim (yieldTest s) else yieldTest s := by
      simp only [signalFeed, hp, and_self, if_true]
    obtain ⟨yields, stays⟩ := yieldTest_spec s
    refine ⟨by simp [signalFeed, hp], fun h => ?_, fun h => ?_⟩
    · rw [first, if_neg fun hb => pourEndsTo_yielded (yields h) rfl hb.2]
      exact yields h
    · rw [first, stays h, if_neg (by simp [hp])]
  · have still (b : Bool) : signalFeed a b s = if b = true ∧ s.fct.pour = .want then tryClaim s else s := by
      have calm : ¬ (a = true ∧ s.fct.pour = .pouring) := by simp [hw]
      rw [signalFeed, if_neg calm]
    rw [still, still, if_pos ⟨rfl, hw⟩, tryClaim]
    simp only [placesLeft_iff]
    exact ⟨rfl, if_neg nofun⟩
  · refine ⟨_, _, levelUpdate p e, exec_levelTaken h, ?_, retestClash_spec _, ?_⟩
    · rw [takeLevel_entry h hr he, tableChanged_pvw]
      exact findPeer_put he (levelUpdate_station p e)
    · rw [takeLevel_entry h hr he, tableChanged_pvw]
      rfl
  · have taken := exec_gateTaken h
    rw [he] at taken
    refine ⟨_, _, gateUpdate p e, taken, ?_, retestClash_spec _, ?_⟩
    · simp only [tableChanged_pvw]
      exact findPeer_put he rfl
    · simp only [tableChanged_pvw]
      rfl
  · have taken := exec_claimTaken h
    rw [he] at taken
    refine ⟨_, taken, ?_⟩
    simp
  · have lapsed := exec_claimLapse runs he
    rw [if_pos (Option.isSome_iff_ne_none.2 claimed)] at lapsed
    refine ⟨_, lapsed, ?_⟩
    simp
  · refine ⟨_, _, exec_peerDrop runs he, retestClash_spec _, ?_⟩
    rw [tableChanged_pvw]
    rfl
  · refine ⟨_, _, exec_levelTaken h, retestClash_spec _, ?_⟩
    rw [takeLevel_new h hr hn, if_pos room, tableChanged_pvw]
    rfl

end Sys2Proof.Machine
end

section
/-! The feed's inputs and times (spec chapter 5, R94 to R97, R101 to R112). -/

namespace Sys2Proof.Machine

/-! ### The gate (R94 to R97) -/

theorem enterOpened_eq (s : State) : enterOpened s =
    (s.setLif (gatePosts .opened s.fct.needAtOpen false s)).setFct { s.fct with gate := .opened, motor := .off } :=
  gateChanged_posts false _ s

theorem jamGate_eq (s : State) : jamGate s = reportBlock
    ((s.setLif (gatePosts .jammed s.fct.needAtOpen false s)).setFct { s.fct with gate := .jammed, motor := .off }) :=
  congrArg reportBlock (gateChanged_posts false _ s)

/-- What a jam makes of the pour, a JAMMED gate being a condition of the block (R99, R100). -/
theorem blockTested_jammed {x t : State} (jammed : x.fct.gate = .jammed) (h : blockTested x t) :
    (x.fct.pour = .pouring → x.fct.blocked = false →
        t = (x.setFct { x.fct with blocked := true, pour := .ending }).setLco
          (endLayer x.ssq.height x.srs.active.lMin .blocked x.lco)) ∧
      (x.fct.pour = .ending ∨ x.fct.pour = .dry ∨ x.fct.blocked = true → t = x.setFct { x.fct with blocked := true }) := by
  have blocked : blockedNow x := .inr (.inr (.inr (.inr (.inr (.inl jammed)))))
  obtain ⟨stays, -, begins, -⟩ := h
  refine ⟨fun hp hb => ?_, fun hp => ?_⟩
  · obtain ⟨-, -, -, pouring⟩ := begins blocked hb
    exact (pouring hp).1 (by rw [jammed]; nofun) (by rw [jammed]; nofun)
  · cases hb : x.fct.blocked with
    | true =>
      rw [stays blocked hb, ← hb]
      rfl
    | false =>
      obtain ⟨idle, -⟩ := begins blocked hb
      rw [hb] at hp
      exact idle (hp.elim .inr fun hp => .inl (hp.resolve_right nofun))

/-- Settles O42: the two limits and the jam. -/
theorem gateEvents : Obligations.GateEvents := by
  refine fun s runs => ⟨fun on => ?_, fun on => ?_, ?_⟩
  · have runs' : blocksRun (s.setPins { s.pins with gateOpenLimit := on }) = true := runs
    show execGateOpenLimit on s = _
    simp only [execGateOpenLimit, runs', true_and, enterOpened_eq]
    rfl
  · have runs' : blocksRun (s.setPins { s.pins with gateClosedLimit := on }) = true := runs
    refine ⟨_, rfl, fun h => ?_, fun hon hg => ?_⟩
    · simp only [runs', true_and]
      exact if_neg h
    · simp only [runs', true_and]
      rw [if_pos ⟨hon, hg⟩]
      exact enterClosed_spec _
  · refine ⟨_, _, rfl, rfl, fun ho hc => if_neg fun h => ?_, fun h => ?_⟩
    · exact h.2.elim ho hc
    · rw [if_pos ⟨runs, h⟩, jamGate_eq]
      have tested := reportBlock_spec
        ((s.setLif (gatePosts .jammed s.fct.needAtOpen false s)).setFct { s.fct with gate := .jammed, motor := .off })
      obtain ⟨pouring, other⟩ := blockTested_jammed rfl tested
      exact ⟨tested, pouring, other⟩

/-! ### The settle decision (R104 to R107) -/

theorem claimRank_eq (need : Int) (s : State) : claimRank (ownStation s) need s.pvw.peers = ownClaimRank need s := by
  refine congrArg (1 + ·) (congrArg (List.countP · s.pvw.peers) (funext fun p => ?_))
  unfold rivalAhead
  cases p.claim <;> simp [ranksAhead, Bool.decide_and]

/-- A pour's opening while the open limit is off: OPENING with its posts (R94, R107). -/
theorem openPour_opening (need : Int) {s : State} (h : s.pins.gateOpenLimit = false) : openPour need s =
    ((s.setLif (gatePosts .opening (some need) false s)).setFct
      { s.fct with
        gate := .opening, motor := .openDrive, travelMs := 0, needAtOpen := some need, ownClaim := none,
        pour := .pouring, pourSeconds := 0 }).setLco (openLayer s.ssq.height s.lco) := by
  have opens : enterOpening (s.setFct { s.fct with needAtOpen := some need }) =
      (s.setLif (gatePosts .opening (some need) false s)).setFct
        { s.fct with needAtOpen := some need, gate := .opening, motor := .openDrive, travelMs := 0 } := by
    unfold enterOpening
    rw [gateChanged_posts]
    exact if_neg (by simp [h])
  rw [openPour, opens]
  rfl

/-- With the open limit already on the gate is OPEN at once, with the posts of both changes. -/
theorem openPour_opened (need : Int) {s : State} (h : s.pins.gateOpenLimit = true) : openPour need s =
    ((s.setLif (gatePosts .opened (some need) false (s.setLif (gatePosts .opening (some need) false s)))).setFct
      { s.fct with
        gate := .opened, motor := .off, travelMs := 0, needAtOpen := some need, ownClaim := none,
        pour := .pouring, pourSeconds := 0 }).setLco (openLayer s.ssq.height s.lco) := by
  have opens : enterOpening (s.setFct { s.fct with needAtOpen := some need }) =
      (s.setLif (gatePosts .opened (some need) false (s.setLif (gatePosts .opening (some need) false s)))).setFct
        { s.fct with needAtOpen := some need, gate := .opened, motor := .off, travelMs := 0 } := by
    unfold enterOpening
    rw [gateChanged_posts]
    exact (if_pos h).trans (enterOpened_eq _)
  rw [openPour, opens]
  rfl

theorem fillSlot_post {α : Type} (slot : Option (Slot α)) (p : α) (n : Nat) : (fillSlot slot p n).map Slot.post = some p := by
  cases slot <;> rfl

/-- The GATE and LEVEL posts of a change of gate state wait in their slots (R97). -/
theorem gatePosts_slots (gate : GateState) (need : Option Int) (yielded : Bool) {s : State} (h : ownStation s ≠ 0) :
    (gatePosts gate need yielded s).gateSlot.map Slot.post =
        some { state := gate, needAtOpen := need.getD 0, yielded := yielded } ∧
      (gatePosts gate need yielded s).levelSlot.isSome = true := by
  rw [gatePosts, if_neg h, wantLevelPost, if_neg h]
  refine ⟨fillSlot_post _ _ _, ?_⟩
  rw [← Option.isSome_map (f := Slot.post)]
  exact congrArg Option.isSome (fillSlot_post _ _ _)

/-- The settle decision of a sent claim (R105). -/
theorem exec_settleDecision {s : State} {c : OwnClaim} (runs : blocksRun s = true) (hc : s.fct.ownClaim = some c)
    (hp : s.fct.pour = .claiming) (sent : c.sent = true) : exec .settleDecision s = .next (decideClaim c s) := by
  show execSettleDecision s = _
  simp only [execSettleDecision, hc, runs, hp, sent, and_self, if_true]

/-- The rank against the places, in the terms of R105. -/
theorem decideClaim_eq (c : OwnClaim) (s : State) {need : Int} (h : need = if s.cpl.record.bind then 15000 else c.need) :
    decideClaim c s =
      if fillGap s < s.srs.active.gReq then s.setFct { s.fct with ownClaim := none, pour := .dry }
      else if (ownClaimRank need s : Int) ≤ s.srs.active.gateLimit - notClosedGates s then openPour need s
      else enterBackoff (2000 + 250 * (ownClaimRank need s - max 0 (s.srs.active.gateLimit - notClosedGates s))).toNat s := by
  subst h
  simp only [decideClaim, claimRank_eq]
  rfl

/-- A second of the pour (R108, R109). -/
theorem exec_pourTimerSecond {s : State} (runs : blocksRun s = true) (hp : s.fct.pour = .pouring) :
    exec .pourTimerSecond s = .next (pourSecond s) := congrArg Host.Outcome.next (if_pos ⟨runs, hp⟩)

/-- Settles O43: the decision, the backoff's end and the second, each by its tests in their order. -/
theorem feedTimes : Obligations.FeedTimes := by
  refine ⟨fun s v hv => ?_, fun s runs => ⟨fun c hc hp sent => ?_, fun hp => ?_, fun hp f hf => ?_⟩⟩
  · simp only [fillGap, hv]
    rfl
  · refine ⟨_, _, exec_settleDecision runs hc hp sent, rfl, ?_⟩
    rw [decideClaim_eq c s rfl]
    refine ⟨fun dry => if_pos dry, fun need far => ?_, fun need near off => ?_, fun need near on => ?_⟩
    · rw [if_neg (Int.not_lt.2 need), if_neg (Int.not_le.2 far)]
      rfl
    · rw [if_neg (Int.not_lt.2 need)]
      exact (if_pos near).trans (openPour_opening _ off)
    · rw [if_neg (Int.not_lt.2 need), if_pos near, openPour_opened _ on]
      exact ⟨rfl, rfl, ⟨rfl, rfl, rfl, rfl, rfl, rfl, rfl, rfl⟩, rfl, rfl, rfl, rfl, fun own => gatePosts_slots _ _ _ own⟩
  · exact ⟨_, congrArg Host.Outcome.next (if_pos ⟨runs, hp⟩), wantOrDry_spec s⟩
  · have second : pourSecond s = if fillGap s ≤ s.srs.active.gFull then endPour .fillReached (s.setFct f)
        else if s.srs.active.pourLimit ≤ (f.pourSeconds : Int) then endPour .timeLimit (s.setFct f) else s.setFct f := by
      subst hf
      rfl
    refine ⟨_, exec_pourTimerSecond runs hp, fun full => ?_, fun open' late => ?_, fun open' early => ?_⟩
    · rw [second, if_pos full]
      exact endPour_spec .fillReached f s
    · rw [second, if_neg (Int.not_le.2 open'), if_pos late]
      exact endPour_spec .timeLimit f s
    · rw [second, if_neg (Int.not_le.2 open'), if_neg (Int.not_le.2 early)]

end Sys2Proof.Machine
end

section
/-! The transmit side of the line (spec chapter 8, R165 to R170): access, and the report of a post that has gone. -/

namespace Sys2Proof.Machine

/-! ### The slots (R166) -/

theorem fillSlot_eq {α : Type} (slot : Option (Slot α)) (p : α) (n : Nat) :
    fillSlot slot p n = some { post := p, stamp := (slot.map Slot.stamp).getD n } := by
  cases slot <;> rfl

theorem modeData_eq (s : State) : modeData s =
    [byteOf (modeNumber (modeOf s.mct)), byteOf (holdSum s.mct.hold), byteOf (safeSum s.mct.safe), byteOf (gateNumber s.fct.gate)] := by
  have gate : gateCode s.fct.gate = gateNumber s.fct.gate := by cases s.fct.gate <;> rfl
  rw [modeData, modeCode_eq, holdCode_eq, safeCode_eq, gate]

/-! ### Access (R165) -/

/-- The quiet time that ACCESS reports without a post to begin. -/
theorem quietReported_quieter {s : State} (h : s.lif.transmitter = none) (quiet : Nat) :
    quietReported (bitTimeUs s.srs.active) quiet s.lif = quieter quiet s := by
  rw [quietReported, if_neg (by simp [h]), errorPassed_eq]
  rfl

theorem exec_access {s : State} (runs : lineRuns s = true) (quiet : Nat) : exec (.access quiet) s =
    .next (s.setLif (accessLine (ownStation s) (levelNow s) (bitTimeUs s.srs.active) quiet s.lif)) := by
  show execAccess quiet s = _
  rw [execAccess, if_pos runs, ownRecord_eq]

/-- The first post of a free line begins once the quiet time reaches its gap. -/
theorem accessLine_first {s : State} (free : LineFree s) (quiet : Nat) {k : TxKind} {body : PostBody} {stamp : Nat}
    (first : firstPost s.lif = some k) (content : slotContent k (levelNow s) s.lif = some (body, stamp)) :
    accessTaken (txClass k) body stamp quiet (emptySlot k s.lif) s
      (s.setLif (accessLine (ownStation s) (levelNow s) (bitTimeUs s.srs.active) quiet s.lif)) := by
  obtain ⟨-, access, ⟨muted, silent⟩, idle⟩ := free
  have may : maySend s.lif = true := by simp [maySend, access, muted, silent, idle]
  have taken : accessLine (ownStation s) (levelNow s) (bitTimeUs s.srs.active) quiet s.lif =
      if accessGap (ownStation s) s.lif.lastSender (txClass k) ≤ max quiet (s.lif.quietUs / bitTimeUs s.srs.active) then
        beginPost (ownStation s) (levelNow s) (bitTimeUs s.srs.active) k s.lif
      else quieter quiet s := by
    rw [accessLine, first]
    simp only [may, true_and, quietReported_quieter idle]
    rfl
  rw [taken]
  refine ⟨fun reached => ?_, fun early => ?_⟩
  · rw [if_pos reached, beginPost, content]
  · rw [if_neg (Nat.not_le.2 early)]

/-- With nothing to send, or not free to, ACCESS leaves its quiet time at most. -/
theorem accessLine_idle {s : State} (quiet : Nat) (h : firstPost s.lif = none ∨ maySend s.lif = false) :
    accessLine (ownStation s) (levelNow s) (bitTimeUs s.srs.active) quiet s.lif = quietReported (bitTimeUs s.srs.active) quiet s.lif := by
  unfold accessLine
  rcases h with h | h
  · rw [h]
  · cases firstPost s.lif with
    | none => rfl
    | some k => exact if_neg (by simp [h])

theorem maySend_iff (l : Lif) :
    maySend l = true ↔ l.access = true ∧ (l.muted = false ∧ l.silent = false) ∧ l.transmitter = none := by
  simp [maySend, and_assoc]

/-- The post of two slots of one class that goes first (R166). -/
theorem olderOf_first {α β : Type} {a : Option (Slot α)} {b : Option (Slot β)} {ka kb : TxKind} {x : Slot α} (ha : a = some x)
    (h : ∀ y, b = some y → x.stamp ≤ y.stamp) : olderOf a b ka kb = some ka := by
  subst ha
  cases b with
  | none => rfl
  | some y => exact if_pos (h y rfl)

theorem olderOf_second {α β : Type} {a : Option (Slot α)} {b : Option (Slot β)} {ka kb : TxKind} {y : Slot β} (hb : b = some y)
    (h : ∀ x, a = some x → y.stamp < x.stamp) : olderOf a b ka kb = some kb := by
  subst hb
  cases a with
  | none => rfl
  | some x => exact if_neg (Nat.not_le.2 (h x rfl))

/-- The periodic LEVEL timer run out (R167). -/
theorem exec_levelTimer {s : State} (runs : lineRuns s = true) (on : s.lif.levelMs ≠ none) : exec .levelTimer s =
    .next (s.setLif (wantLevelPost (ownStation s) { s.lif with levelMs := some 0 })) :=
  congrArg Host.Outcome.next (if_pos ⟨runs, Option.isSome_iff_ne_none.2 on⟩)

/-- Settles O46: the queue's order is `firstPost`'s, slot by slot. -/
theorem accessBegins : Obligations.AccessBegins := by
  refine ⟨fun l => ⟨fun p => ?_, fun p => ?_, fun p => ?_, fun own => ?_, fun p => ?_⟩,
    fun sender code data => ⟨rfl, fun why => by cases why <;> rfl⟩, modeData_eq, fun s => ⟨fun free quiet => ?_,
      levelPayload_eq _, fun runs blocked quiet => ?_, fun runs on => ⟨_, exec_levelTimer runs on, rfl, fun unset => ?_,
        fun set x hx => ?_, fun set hn => ?_⟩⟩⟩
  · rw [queueHaltPost, fillSlot_eq]
  · rw [queueClaimPost, fillSlot_eq]
  · rw [queueGatePost, fillSlot_eq]
  · rw [wantLevelPost, fillSlot_eq]
  · rw [queueReplyPost, fillSlot_eq]
  · refine ⟨_, exec_access free.runs quiet, fun x hx => ?_, fun noHalt => ⟨fun x hx older => ?_, fun y hy older => ?_,
      fun noClaim noGate => ⟨fun x hx older => ?_, fun y hy older => ?_, fun noLevel noReply => ?_⟩⟩⟩
    · exact accessLine_first (k := .halt) free quiet (by rw [firstPost, hx]) (by rw [slotContent, hx]; rfl)
    · refine accessLine_first (k := .claim) free quiet ?_ (by rw [slotContent, hx]; rfl)
      rw [firstPost, noHalt, olderOf_first hx older]
    · refine accessLine_first (k := .gate) free quiet ?_ (by rw [slotContent, hy]; rfl)
      rw [firstPost, noHalt, olderOf_second hy older]
    · refine accessLine_first (k := .level) free quiet ?_ (by rw [slotContent, hx]; rfl)
      rw [firstPost, noHalt, noClaim, noGate, olderOf_first hx older]
      rfl
    · refine accessLine_first (k := .reply) free quiet ?_ (by rw [slotContent, hy]; rfl)
      rw [firstPost, noHalt, noClaim, noGate, olderOf_second hy older]
      rfl
    · rw [accessLine_idle quiet (.inl ?_), quietReported_quieter free.free]
      rw [firstPost, noHalt, noClaim, noGate, noLevel, noReply]
      rfl
  · have busy : maySend s.lif = false := by
      rw [← Bool.not_eq_true, maySend_iff]
      exact fun ⟨access, speaks, idle⟩ => blocked ⟨runs, access, speaks, idle⟩
    rw [exec_access runs, accessLine_idle quiet (.inr busy)]
    cases ht : s.lif.transmitter with
    | none => rw [quietReported_quieter ht]; rfl
    | some tx => rw [quietReported_sending (by rw [ht]; rfl)]; rfl
  · exact if_pos unset
  · show wantLevelPost _ _ = _
    rw [wantLevelPost, if_neg set]
    simp only [fillSlot, hx]
  · show wantLevelPost _ _ = _
    rw [wantLevelPost, if_neg set]
    simp only [fillSlot, hn]

/-! ### A post that has gone (R170) -/

/-- The report of a REPLY that has gone, none waiting behind it, begins the RESTART that waits for it. -/
theorem replyReported_restart {s : State} (waits : s.ors.restartWaiting = true) (empty : s.lif.replySlot = none)
    (idle : transmitting s.lif 6 = false) : replyReported s = restartReported s := by
  unfold replyReported restartReported
  rw [if_pos ⟨waits, empty, idle⟩, tryRestart_eq]
  simp [waits, restartBegun]

/-- Settles O48: the report goes to the block that queued the post. -/
theorem postSent : Obligations.PostSent := by
  intro tx s runs ht
  have sent : exec .postSent s = .next (reportSent tx.body (s.setLif (sentBy s))) := by
    show execPostSent s = _
    rw [execPostSent, ht]
    simp only [runs, if_true]
    rfl
  have stopped (h : s.ors.restartWaiting = true) : blocksRun (s.setLif (sentBy s)) = false := by
    simp [blocksRun, h]
  refine ⟨_, sent, fun p hb => by rw [hb]; rfl, fun p hb => by rw [hb]; rfl, fun p c hb blocks hc => ?_, fun p hb hc => ?_,
    fun p hb waits => ?_, fun p hb blocks => ?_, fun p hb waits => ?_, fun p hb calm => ?_, fun p hb waits another => ?_,
    fun p hb waits empty => ?_⟩
  all_goals rw [hb, reportSent]
  · have blocks' : blocksRun (s.setLif (sentBy s)) = true := blocks
    have claim : (s.setLif (sentBy s)).fct.ownClaim = some c := hc
    rw [if_pos blocks', claimSent, claim]
    rfl
  · have claim : (s.setLif (sentBy s)).fct.ownClaim = none := hc
    rw [claimSent, claim, ite_self]
  · rw [stopped waits]
    rfl
  · have blocks' : blocksRun (s.setLif (sentBy s)) = true := blocks
    have slot : (s.setLif (sentBy s)).lif.haltSlot = s.lif.haltSlot := rfl
    rw [if_pos blocks', haltSent, slot]
    cases s.lif.haltSlot <;> rfl
  · rw [stopped waits]
    rfl
  · exact if_neg fun h => Bool.false_ne_true (calm.symm.trans h.1)
  · exact if_neg fun h => another h.2.1
  · exact replyReported_restart waits empty rfl

end Sys2Proof.Machine
end

section
/-! The receive side of the line and MUTE (spec chapter 8, R155, R161 to R164, R169, R171, R172). -/

namespace Sys2Proof.Machine

/-! ### What the modes and the feed leave of LIF -/

theorem SameElsewhere.trans {r s t : State} (h : SameElsewhere r s) (k : SameElsewhere s t) : SameElsewhere r t :=
  ⟨k.pvw.trans h.pvw, k.cpl.trans h.cpl, k.srs.trans h.srs, k.ldr.trans h.ldr, k.pins.trans h.pins, k.nowMs.trans h.nowMs,
    k.freeCount.trans h.freeCount, k.pending.trans h.pending⟩

/-- LIF but for the posts that the feed and the own record queue: the receiver, the counters, and the HALT and REPLY slots. -/
def lineBase (l : Lif) : Lif :=
  { l with claimSlot := none, gateSlot := none, levelSlot := none, nextStamp := 0, transmitter := none }

/-- What the posts of the feed and the own record leave, field by field. -/
theorem lineBase_kept {a b : Lif} (h : lineBase a = lineBase b) :
    a.fifo = b.fifo ∧ a.haltSlot = b.haltSlot ∧ a.replySlot = b.replySlot ∧ a.muted = b.muted ∧ a.bucket = b.bucket ∧
      a.rejoinMs = b.rejoinMs ∧ a.rejoinCount = b.rejoinCount := by
  simp only [lineBase, Lif.mk.injEq] at h
  simp [h]

theorem gatePosts_line (gate : GateState) (need : Option Int) (yielded : Bool) (s : State) :
    lineBase (gatePosts gate need yielded s) = lineBase s.lif := by
  unfold gatePosts wantLevelPost
  split <;> rfl

/-- The GATE and LEVEL posts leave the CLAIM slot, the transmitter and MUTE. -/
theorem gatePosts_claim (gate : GateState) (need : Option Int) (yielded : Bool) (s : State) :
    (gatePosts gate need yielded s).claimSlot = s.lif.claimSlot ∧ (gatePosts gate need yielded s).transmitter = s.lif.transmitter ∧
      (gatePosts gate need yielded s).muted = s.lif.muted := by
  unfold gatePosts wantLevelPost
  split <;> exact ⟨rfl, rfl, rfl⟩

theorem wantedOrDry_line {s t : State} (h : wantedOrDry s t) : lineBase t.lif = lineBase s.lif := by
  obtain ⟨dry, claim, want⟩ := h
  by_cases hw : wants s
  · rcases lt_or_ge (notClosedGates s : Int) s.srs.active.gateLimit with place | full
    · rw [claim hw place]; rfl
    · rw [want hw full]; rfl
  · rw [dry hw]; rfl

theorem pourEndsTo_line {reason : EndReason} {yielded : Bool} {f : Fct} {s t : State} (h : pourEndsTo reason yielded f s t) :
    lineBase t.lif = lineBase s.lif := by
  obtain ⟨other, moving⟩ := h
  by_cases hg : f.gate = .opening ∨ f.gate = .opened
  · obtain ⟨off, on⟩ := moving hg
    cases hc : s.pins.gateClosedLimit with
    | false => rw [off hc]; exact gatePosts_line _ _ _ _
    | true =>
      have closed : lineBase (closedAtOnce yielded f s).lif = lineBase s.lif :=
        (gatePosts_line _ _ _ _).trans (gatePosts_line _ _ _ _)
      obtain ⟨v, rfl, back, again⟩ := on hc
      cases hy : f.yieldMark with
      | true => rw [back hy]; exact closed
      | false => exact (wantedOrDry_line (again hy)).trans closed
  · rw [other (fun h => hg (.inl h)) fun h => hg (.inr h)]
    rfl

theorem blockBegun_line {s t : State} (h : blockBegun s t) : lineBase t.lif = lineBase s.lif := by
  obtain ⟨idle, wanting, claiming, pouring⟩ := h
  cases hp : s.fct.pour with
  | dry => rw [idle (.inl hp)]; rfl
  | ending => rw [idle (.inr hp)]; rfl
  | want => rw [wanting (.inl hp)]; rfl
  | backoff => rw [wanting (.inr hp)]; rfl
  | claiming =>
    rw [claiming hp]
    simp only [State.setFct_lif, State.setLif_lif]
    split <;> rfl
  | pouring => exact pourEndsTo_line (pouring hp)

theorem blockTested_line {s t : State} (h : blockTested s t) : lineBase t.lif = lineBase s.lif := by
  obtain ⟨stays, calm, begins, ends⟩ := h
  by_cases hb : blockedNow s <;> cases hf : s.fct.blocked
  · exact blockBegun_line (begins hb hf)
  · rw [stays hb hf]
  · rw [calm hb hf]
  · obtain ⟨dry, other⟩ := ends hb hf
    by_cases hp : s.fct.pour = .dry
    · exact (wantedOrDry_line (dry hp)).trans rfl
    · rw [other hp]; rfl

theorem modeFollowed_line {m : Mct} {s t : State} (h : modeFollowed m s t) : lineBase t.lif = lineBase s.lif := by
  obtain ⟨u, b, tested, -, rfl⟩ := h
  refine (blockTested_line tested).trans ?_
  simp only [State.setMct_lif, State.setOrs_lif, State.setLif_lif]
  split
  · rfl
  · unfold wantLevelPost; split <;> rfl

/-- IDENTITY_CLASH queues no HALT post (R141, R143). -/
theorem causeAdded_line {f : SafeSet} {s t : State} (h : causeAdded none f s t) : lineBase t.lif = lineBase s.lif := by
  obtain ⟨joins, first⟩ := h
  by_cases hs : s.mct.safe = noSafe
  · obtain ⟨u, followed, rfl⟩ := first hs
    exact (modeFollowed_line followed).trans rfl
  · rw [joins hs]; rfl

/-! ### The feed in MUTE (R99, R100, R171) -/

/-- What the pour block leaves where MUTE makes it, no CLAIM post being anywhere at LIF. -/
structure MuteBlocks (s t : State) : Prop where
  claim : t.lif.claimSlot = none
  transmitter : t.lif.transmitter = none
  waiting : s.fct.blocked = false → s.fct.pour = .dry ∨ s.fct.pour = .want ∨ s.fct.pour = .claiming ∨ s.fct.pour = .backoff →
    t.fct.pour = .dry
  pouring : s.fct.blocked = false → s.fct.pour = .pouring → s.pins.gateClosedLimit = false → t.fct.pour = .ending
  column : s.fct.pour ≠ .pouring → t.lco = s.lco

theorem blockedNow_muted {s : State} (h : s.lif.muted = true) : blockedNow s := .inr (.inr (.inr (.inr (.inr (.inr h)))))

theorem wantedOrDry_muted {s t : State} (muted : s.lif.muted = true) (h : wantedOrDry s t) : t = s.setFct { s.fct with pour := .dry } :=
  h.1 fun hw => hw.2.2.1 (blockedNow_muted muted)

theorem pourEndsTo_muted {f : Fct} {s t : State} (muted : s.lif.muted = true) (claim : s.lif.claimSlot = none)
    (idle : s.lif.transmitter = none) (h : pourEndsTo .blocked false f s t) :
    t.lif.claimSlot = none ∧ t.lif.transmitter = none ∧ (s.pins.gateClosedLimit = false → t.fct.pour = .ending) := by
  obtain ⟨other, moving⟩ := h
  have closing := gatePosts_claim .closing f.needAtOpen false s
  by_cases hg : f.gate = .opening ∨ f.gate = .opened
  · obtain ⟨off, on⟩ := moving hg
    cases hc : s.pins.gateClosedLimit with
    | false =>
      rw [off hc]
      exact ⟨closing.1.trans claim, closing.2.1.trans idle, fun _ => rfl⟩
    | true =>
      have closed := gatePosts_claim .closed none false (s.setLif (gatePosts .closing f.needAtOpen false s))
      have lif : (closedAtOnce false f s).lif.claimSlot = none ∧ (closedAtOnce false f s).lif.transmitter = none ∧
          (closedAtOnce false f s).lif.muted = true :=
        ⟨closed.1.trans (closing.1.trans claim), closed.2.1.trans (closing.2.1.trans idle), closed.2.2.trans (closing.2.2.trans muted)⟩
      obtain ⟨v, rfl, back, again⟩ := on hc
      cases hy : f.yieldMark with
      | true =>
        rw [back hy]
        exact ⟨lif.1, lif.2.1, nofun⟩
      | false =>
        rw [wantedOrDry_muted lif.2.2 (again hy)]
        exact ⟨lif.1, lif.2.1, nofun⟩
  · rw [other (fun h => hg (.inl h)) fun h => hg (.inr h)]
    exact ⟨claim, idle, fun _ => rfl⟩

theorem blockTested_muted {s t : State} (muted : s.lif.muted = true) (claim : s.lif.claimSlot = none)
    (idle : s.lif.transmitter = none) (h : blockTested s t) : MuteBlocks s t := by
  obtain ⟨stays, -, begins, -⟩ := h
  have blocked := blockedNow_muted muted
  cases hf : s.fct.blocked with
  | true =>
    rw [stays blocked hf]
    exact ⟨claim, idle, fun h => (nomatch hf.symm.trans h), fun h => (nomatch hf.symm.trans h), fun _ => rfl⟩
  | false =>
    obtain ⟨resting, wanting, claiming, pouring⟩ := begins blocked hf
    cases hp : s.fct.pour with
    | dry =>
      rw [resting (.inl hp)]
      exact ⟨claim, idle, fun _ _ => hp, fun _ h => (nomatch hp.symm.trans h), fun _ => rfl⟩
    | ending =>
      rw [resting (.inr hp)]
      refine ⟨claim, idle, fun _ h => ?_, fun _ h => (nomatch hp.symm.trans h), fun _ => rfl⟩
      rw [hp] at h
      rcases h with h | h | h | h <;> cases h
    | want =>
      rw [wanting (.inl hp)]
      exact ⟨claim, idle, fun _ _ => rfl, fun _ h => (nomatch hp.symm.trans h), fun _ => rfl⟩
    | backoff =>
      rw [wanting (.inr hp)]
      exact ⟨claim, idle, fun _ _ => rfl, fun _ h => (nomatch hp.symm.trans h), fun _ => rfl⟩
    | claiming =>
      rw [claiming hp]
      refine ⟨?_, ?_, fun _ _ => rfl, fun _ h => (nomatch hp.symm.trans h), fun _ => rfl⟩
      · simp only [State.setFct_lif, State.setLif_lif]
        split
        · rfl
        · exact claim
      · simp only [State.setFct_lif, State.setLif_lif]
        split
        · simp [claimWithdrawn, idle]
        · exact idle
    | pouring =>
      obtain ⟨c, i, e⟩ := pourEndsTo_muted muted claim idle (pouring hp)
      refine ⟨c, i, fun _ h => ?_, fun _ _ => e, fun h => absurd hp h⟩
      rw [hp] at h
      rcases h with h | h | h | h <;> cases h

theorem modeFollowed_muted {m : Mct} {s t : State} (muted : s.lif.muted = true) (claim : s.lif.claimSlot = none)
    (idle : s.lif.transmitter = none) (h : modeFollowed m s t) : MuteBlocks s t := by
  obtain ⟨u, b, tested, -, hu⟩ := h
  have lif : u.lif.muted = true ∧ u.lif.claimSlot = none ∧ u.lif.transmitter = none := by
    rw [hu]
    simp only [State.setMct_lif, State.setOrs_lif, State.setLif_lif]
    split
    · exact ⟨muted, claim, idle⟩
    · unfold wantLevelPost
      split <;> exact ⟨muted, claim, idle⟩
  have fct : u.fct = s.fct ∧ u.pins = s.pins ∧ u.lco = s.lco := by rw [hu]; exact ⟨rfl, rfl, rfl⟩
  have k := blockTested_muted lif.1 lif.2.1 lif.2.2 tested
  obtain ⟨hf, hp, hl⟩ := fct
  have waiting := k.waiting
  have pouring := k.pouring
  have column := k.column
  rw [hf] at waiting pouring column
  rw [hp] at pouring
  rw [hl] at column
  exact ⟨k.claim, k.transmitter, waiting, pouring, column⟩

/-! ### A garble (R169, R171) -/

theorem garbleLine_eq (tx : Transmission) (s : State) : garbleLine (ownStation s) tx s.lif = garbled tx s := by
  have back {α : Type} (slot : Option (Slot α)) (p : α) : returnSlot slot p tx.stamp =
      if slot.isSome then slot else some { post := p, stamp := tx.stamp } := by cases slot <;> rfl
  cases hl : tx.tooLate <;> cases hb : tx.body <;>
    simp [garbleLine, returnPost, garbled, backInSlot, hl, hb, back, satAdd]

/-- A claim that fails in MUTE goes to DRY: nothing is wanted while the pour is blocked (R101, R103). -/
theorem claimFailed_muted {s : State} (muted : s.lif.muted = true) : claimFailed s =
    if s.fct.pour = .claiming ∧ s.fct.ownClaim.map OwnClaim.sent = some false then
      s.setFct { s.fct with ownClaim := none, pour := .dry }
    else s := by
  unfold claimFailed
  cases hc : s.fct.ownClaim with
  | none => simp
  | some c =>
    simp only [Option.map_some, Option.some.injEq]
    split
    · exact wantedOrDry_muted (s := s.setFct { s.fct with ownClaim := none }) muted (wantOrDry_spec _)
    · rfl

/-- What LIF's entry to MUTE reports while no RESTART waits. -/
theorem muteReports_blocks {l : Lif} {s : State} (calm : s.ors.restartWaiting = false) (up : s.srs.life = .up) :
    muteReports l s = addHold .mute (if l.claimSlot.isSome then claimFailed s else s) := by
  have quiet : replyReported s = s := if_neg (by simp [calm])
  rw [muteReports, quiet, ite_self]
  exact if_pos ((blocksRun_iff s).2 ⟨up, calm⟩)

/-- While a RESTART waits only the REPLY discarded is reported. -/
theorem muteReports_waiting {l : Lif} {s : State} (waits : s.ors.restartWaiting = true) :
    muteReports l s = if l.replySlot.isSome then replyReported s else s := by
  have stopped : blocksRun (if l.replySlot.isSome then replyReported s else s) = false := by
    split
    · unfold replyReported
      split
      · rw [tryRestart_eq]
        split
        · simp [blocksRun, restartBegun]
        · simp [blocksRun, waits]
      · simp [blocksRun, waits]
    · simp [blocksRun, waits]
  unfold muteReports
  simp only [stopped, Bool.false_eq_true, if_false]

theorem mute_holds (h : HoldSet) : { h with mute := true } ≠ noHold := fun e => by
  have := congrArg HoldSet.mute e
  simp [noHold] at this

/-- LIF right after its entry to MUTE with `l`. -/
theorem exec_garble {tx : Transmission} {s : State} (runs : lineRuns s = true) (ht : s.lif.transmitter = some tx) :
    exec .garble s = .next (if 96 ≤ s.lif.bucket + 8 then muteReports (garbled tx s) (s.setLif (enterMute (garbled tx s)))
      else s.setLif (garbled tx s)) := by
  show execGarble s = _
  rw [execGarble, ht]
  simp only [runs, if_true, garbleLine_eq]
  rfl

/-- MUTE entered while no RESTART waits (R171): its hold cause, and the pour block it makes. -/
theorem mute_entered {tx : Transmission} {s v : State} (calm : s.ors.restartWaiting = false) (up : s.srs.life = .up)
    (hv : v = if (garbled tx s).claimSlot ≠ none ∧ s.fct.pour = .claiming ∧ s.fct.ownClaim.map OwnClaim.sent = some false then
      (s.setLif (enterMute (garbled tx s))).setFct { s.fct with ownClaim := none, pour := .dry }
    else s.setLif (enterMute (garbled tx s))) :
    muteReports (garbled tx s) (s.setLif (enterMute (garbled tx s))) = addHold .mute v := by
  rw [muteReports_blocks (s := s.setLif (enterMute (garbled tx s))) calm up]
  have failed := claimFailed_muted (s := s.setLif (enterMute (garbled tx s))) rfl
  rw [failed, hv]
  refine congrArg _ ?_
  cases (garbled tx s).claimSlot with
  | none => simp
  | some x =>
    simp only [Option.isSome_some, if_true, ne_eq, reduceCtorEq, not_false_eq_true, true_and]
    rfl

/-- The hold cause MUTE added in a node whose LIF is in MUTE, no CLAIM post being anywhere (R171). -/
structure MuteAdded (v t : State) : Prop where
  blocks : MuteBlocks v t
  line : lineBase t.lif = lineBase v.lif
  hold : t.mct.hold = { v.mct.hold with mute := true }
  rest : t.mct.safe = v.mct.safe ∧ t.mct.base = v.mct.base
  mode : modeOf v.mct = .climb → modeOf t.mct = .hold
  stroke : t.ssq = v.ssq ∧ t.msq = v.msq
  elsewhere : SameElsewhere v t
  follows : modeFollowed v.mct (v.setMct { v.mct with hold := { v.mct.hold with mute := true } }) t

theorem addHold_mute {v : State} (muted : v.lif.muted = true) (claim : v.lif.claimSlot = none) (idle : v.lif.transmitter = none) :
    MuteAdded v (addHold .mute v) := by
  have follows := addHold_finishes .mute rfl v
  obtain ⟨b, mct⟩ := addHold_mct .mute v
  have k := modeFollowed_muted (s := v.setMct { v.mct with hold := { v.mct.hold with mute := true } }) muted claim idle follows
  refine ⟨⟨k.claim, k.transmitter, k.waiting, k.pouring, k.column⟩, (modeFollowed_line follows).trans rfl,
    by rw [mct]; rfl, by rw [mct]; exact ⟨rfl, rfl⟩, fun climbs => ?_, by simp [addHold, isCutCause],
    ⟨by simp, by simp, by simp, by simp, by simp, by simp, by simp, by simp⟩, follows⟩
  have mode : modeOf (addHold .mute v).mct = modeOf { v.mct with hold := { v.mct.hold with mute := true } } := by
    rw [mct]
    exact modeOf_settling { v.mct with hold := { v.mct.hold with mute := true } } b
  rw [mode]
  have calm : v.mct.safe = noSafe := not_not.1 ((modeOf_safe_iff _).not.1 (by rw [climbs]; nofun))
  cases hb : v.mct.base with
  | setup => rw [modeOf_setup calm hb] at climbs; cases climbs
  | running =>
    exact (modeOf_running (m := { v.mct with hold := { v.mct.hold with mute := true } }) calm hb).trans (if_neg (mute_holds _))

/-- A pour block that stands, or ends out of DRY, leaves the pour and the column (R100). -/
theorem blockTested_blocked {s t : State} (h : blockTested s t) (blocked : s.fct.blocked = true) (hp : s.fct.pour ≠ .dry) :
    t.lco = s.lco ∧ t.fct.pour = s.fct.pour := by
  obtain ⟨stays, -, -, ends⟩ := h
  by_cases hb : blockedNow s
  · rw [stays hb blocked]; exact ⟨rfl, rfl⟩
  · rw [(ends hb blocked).2 hp]; exact ⟨rfl, rfl⟩

theorem modeFollowed_blocked {m : Mct} {s t : State} (h : modeFollowed m s t) (blocked : s.fct.blocked = true)
    (hp : s.fct.pour ≠ .dry) : t.lco = s.lco ∧ t.fct.pour = s.fct.pour := by
  obtain ⟨u, b, tested, -, hu⟩ := h
  have fct : u.fct = s.fct ∧ u.lco = s.lco := by rw [hu]; exact ⟨rfl, rfl⟩
  have k := blockTested_blocked tested (by rw [fct.1]; exact blocked) (by rw [fct.1]; exact hp)
  rw [fct.1, fct.2] at k
  exact k

/-- The hold cause MUTE removed as LIF leaves MUTE (R172). -/
structure MuteRemoved (v t : State) : Prop where
  line : lineBase t.lif = lineBase v.lif
  hold : t.mct.hold = { v.mct.hold with mute := false }
  rest : t.mct.safe = v.mct.safe ∧ t.mct.base = v.mct.base
  feed : v.fct.blocked = true → v.fct.pour ≠ .dry → t.lco = v.lco ∧ t.fct.pour = v.fct.pour
  stroke : t.ssq = v.ssq ∧ t.msq = v.msq
  elsewhere : SameElsewhere v t
  follows : modeFollowed v.mct (v.setMct { v.mct with hold := { v.mct.hold with mute := false } }) t

theorem removeHold_mute (v : State) : MuteRemoved v (removeHold .mute v) := by
  have follows := removeHold_spec .mute v
  obtain ⟨b, mct⟩ := removeHold_mct .mute v
  exact ⟨(modeFollowed_line follows).trans rfl, by rw [mct]; rfl, by rw [mct]; exact ⟨rfl, rfl⟩,
    modeFollowed_blocked (s := v.setMct { v.mct with hold := { v.mct.hold with mute := false } }) follows, by simp,
    ⟨by simp, by simp, by simp, by simp, by simp, by simp, by simp, by simp⟩, follows⟩

/-- The state with LIF in MUTE and its claim failed, where one waited (R103, R171). -/
theorem mute_claim {tx : Transmission} {s v : State}
    (hv : v = if (garbled tx s).claimSlot ≠ none ∧ s.fct.pour = .claiming ∧ s.fct.ownClaim.map OwnClaim.sent = some false then
      (s.setLif (enterMute (garbled tx s))).setFct { s.fct with ownClaim := none, pour := .dry }
    else s.setLif (enterMute (garbled tx s))) :
    v = (s.setLif (enterMute (garbled tx s))).setFct v.fct ∧ v.fct.blocked = s.fct.blocked ∧
      (v.fct.pour = s.fct.pour ∨ (s.fct.pour = .claiming ∧ v.fct.pour = .dry)) := by
  subst hv
  split
  · next h => exact ⟨rfl, rfl, .inr ⟨h.2.1, rfl⟩⟩
  · exact ⟨rfl, rfl, .inl rfl⟩

/-- Settles O47: the bucket, then MUTE with its reports; and the return from it. -/
theorem garbleAndMute : Obligations.GarbleAndMute := by
  refine fun s runs => ⟨fun tx ht => ⟨_, exec_garble runs ht, fun low => if_neg (by omega), fun full waits u hu => ?_,
    fun full calm => ?_⟩, fun muted => ⟨leaveIfDue s, congrArg Host.Outcome.next (if_pos runs), fun early => ?_, fun due waits => ?_,
      fun due calm => ?_⟩⟩
  · have empties : (s.setLif (enterMute (garbled tx s))).ors.restartWaiting = true := waits
    rw [if_pos (by omega), muteReports_waiting empties, hu]
    cases (garbled tx s).replySlot with
    | none => rfl
    | some x => exact replyReported_restart empties rfl rfl
  · rw [if_pos (by omega), mute_entered calm (decide_eq_true_iff.1 runs) rfl]
    generalize hv : (if (garbled tx s).claimSlot ≠ none ∧ s.fct.pour = .claiming ∧
      s.fct.ownClaim.map OwnClaim.sent = some false then
        (s.setLif (enterMute (garbled tx s))).setFct { s.fct with ownClaim := none, pour := .dry }
      else s.setLif (enterMute (garbled tx s))) = v
    obtain ⟨hs, blocked, pour⟩ := mute_claim hv.symm
    have lif : v.lif = enterMute (garbled tx s) := by rw [hs]; rfl
    obtain ⟨blocks, line, hold, rest, mode, stroke, elsewhere, follows⟩ :=
      addHold_mute (v := v) (by rw [lif]; rfl) (by rw [lif]; rfl) (by rw [lif]; rfl)
    obtain ⟨fifo, halt, reply, isMuted, bucket, ms, count⟩ := lineBase_kept (line.trans (congrArg lineBase lif))
    have mct : v.mct = s.mct := by rw [hs]; rfl
    rw [mct] at hold rest mode follows
    have parts : v.ssq = s.ssq ∧ v.msq = s.msq ∧ v.lco = s.lco ∧ v.pins = s.pins := by rw [hs]; exact ⟨rfl, rfl, rfl, rfl⟩
    obtain ⟨ssq, msq, lco, pins⟩ := parts
    have same : SameElsewhere s v := by rw [hs]; exact ⟨rfl, rfl, rfl, rfl, rfl, rfl, rfl, rfl⟩
    refine ⟨isMuted, blocks.transmitter, blocks.claim, reply, ms, count, bucket, halt, fifo, hold, rest.1, rest.2, mode,
      fun free waits => blocks.waiting (blocked.trans free) ?_, fun free pours limit => ?_, fun pours => ?_, stroke.1.trans ssq,
      stroke.2.trans msq, same.trans elsewhere, fun w v' hw hv' => ?_⟩
    · rcases pour with kept | ⟨-, dry⟩
      · rw [kept]; exact .inr waits
      · exact .inl dry
    · rcases pour with kept | ⟨claims, -⟩
      · exact blocks.pouring (blocked.trans free) (kept.trans pours) (pins ▸ limit)
      · cases claims.symm.trans pours
    · refine (blocks.column ?_).trans lco
      rcases pour with kept | ⟨-, dry⟩
      · rw [kept]; exact pours
      · rw [dry]; nofun
    · have : v' = v := by rw [hv', hw]; exact hv
      rw [this]
      exact follows
  · have notDue : rejoinDue s.lif = false := by
      rw [← Bool.not_eq_true, rejoinDue_iff]
      exact fun h => early h.2
    exact leaveIfDue_early notDue
  · have isDue : rejoinDue s.lif = true := (rejoinDue_iff _).2 ⟨muted, due⟩
    have stopped : ¬ blocksRun (s.setLif (leaveMute s.lif)) = true := by simp [blocksRun, waits]
    rw [leaveIfDue, if_pos isDue]
    exact if_neg stopped
  · have isDue : rejoinDue s.lif = true := (rejoinDue_iff _).2 ⟨muted, due⟩
    have blocks : blocksRun (s.setLif (leaveMute s.lif)) = true := (blocksRun_iff _).2 ⟨decide_eq_true_iff.1 runs, calm⟩
    have left : leaveIfDue s = removeHold .mute (s.setLif (leaveMute s.lif)) := by
      rw [leaveIfDue, if_pos isDue]
      exact if_pos blocks
    obtain ⟨line, hold, rest, feed, stroke, elsewhere, follows⟩ := removeHold_mute (s.setLif (leaveMute s.lif))
    obtain ⟨fifo, -, -, isMuted, bucket, -⟩ := lineBase_kept line
    rw [left]
    exact ⟨isMuted, bucket, fifo, hold, rest.1, rest.2, feed, stroke.1, stroke.2,
      SameElsewhere.trans (s := s.setLif (leaveMute s.lif)) ⟨rfl, rfl, rfl, rfl, rfl, rfl, rfl, rfl⟩ elsewhere, follows⟩

end Sys2Proof.Machine
end

section
/-! Reception (spec chapter 8, R155, R161 to R164, R172). -/

namespace Sys2Proof.Machine

/-! ### The receiver, in closed form -/

theorem rejoinRestart_eq (l : Lif) : rejoinRestart l = errorHeard l := by
  by_cases h : l.muted = true
  · simp [rejoinRestart, errorHeard, h]
  · rw [rejoinRestart, errorHeard, if_neg h, if_neg h, if_neg h]

theorem takesPost_iff (s : State) (p : RxPost) : takesPost (ownStation s) p = true ↔ takenHere s p := by
  obtain ⟨sender, body⟩ := p
  cases body with
  | order payload => cases payload <;> simp [takesPost, takenHere]
  | _ => simp [takesPost, takenHere]

/-- LIF after a clean post (R155, R163, R164). -/
def cleanHeard (own : Nat) (p : RxPost) (l : Lif) : Lif :=
  { l with
    lastSender := p.sender, rx := .ready, quietUs := 0, byteLeftUs := 0
    rejoinCount := if l.muted then min 255 (l.rejoinCount + 1) else l.rejoinCount
    fifo := if takesPost own p = true ∧ l.fifo.length < 2 then l.fifo ++ [p] else l.fifo
    overruns := if takesPost own p = true ∧ 2 ≤ l.fifo.length then min 65535 (l.overruns + 1) else l.overruns }

theorem receiveLine_clean {l : Lif} (h : l.rx ≠ .errored) (own : Nat) (p : RxPost) :
    receiveLine own (.clean p) l = cleanHeard own p l := by
  have hh : hears l = true := decide_eq_true h
  rw [receiveLine, if_pos hh]
  simp only [judgedLine, cleanPostLine, offerPost, cleanHeard]
  by_cases ht : takesPost own p = true
  · by_cases room : l.fifo.length < 2
    · simp [ht, room, trafficEnded, satAdd, not_le.2 room]
    · simp [ht, room, trafficEnded, satAdd, not_lt.1 room]
  · simp [ht, trafficEnded, satAdd]

/-! ### The reports of a clean post -/

@[simp] theorem afterCauses_restartWaiting (m : Mct) (s : State) :
    (afterCauses m s).ors.restartWaiting = s.ors.restartWaiting := by
  simp only [afterCauses]
  (repeat' split) <;> simp

@[simp] theorem addSafe_restartWaiting (c : SafeCause) (s : State) :
    (addSafe c s).ors.restartWaiting = s.ors.restartWaiting := by
  simp only [addSafe]
  (repeat' split) <;> simp

/-- The identity clash leaves LIF's receiver and silences it (R40, R173). -/
theorem identityClash_line (s : State) : lineBase (identityClash s).lif = lineBase { s.lif with silent := true } := by
  have line := causeAdded_line (addSafe_spec .identityClash (s.setPvw { s.pvw with identityClash := true }))
  exact congrArg (fun l : Lif => { l with silent := true }) line

theorem identityClash_runs (s : State) : blocksRun (identityClash s) = blocksRun s := by
  simp [identityClash, blocksRun]

theorem identityReport_own {s : State} {p : RxPost} (own : p.sender = ownStation s) (low : 1 ≤ ownStation s)
    (high : ownStation s ≤ 62) (runs : blocksRun s = true) : identityReport (.clean p) s = identityClash s :=
  if_pos ⟨by simp [isIdentityPost, own, low, high], runs⟩

theorem identityReport_other {s : State} {p : RxPost} (other : p.sender ≠ ownStation s ∨ ownStation s = 0) :
    identityReport (.clean p) s = s := by
  refine if_neg fun h => ?_
  have own : p.sender = ownStation s ∧ 1 ≤ ownStation s ∧ ownStation s ≤ 62 := by simpa [isIdentityPost] using h.1
  omega

theorem identityReport_line (v : Verdict) (s : State) : ∃ quiet,
    lineBase (identityReport v s).lif = lineBase { s.lif with silent := quiet } := by
  unfold identityReport
  split
  · exact ⟨_, identityClash_line s⟩
  · exact ⟨s.lif.silent, rfl⟩

theorem identityReport_runs (v : Verdict) (s : State) : blocksRun (identityReport v s) = blocksRun s := by
  unfold identityReport
  split
  · exact identityClash_runs s
  · rfl

/-- The end of MUTE where its moment has come (R172). -/
structure MuteLeft (u t : State) : Prop where
  line : lineBase t.lif = lineBase (leaveMute u.lif)
  hold : blocksRun u = true → t.mct.hold.mute = false
  rest : t.mct.safe = u.mct.safe ∧ t.mct.base = u.mct.base
  stroke : t.ssq = u.ssq ∧ t.msq = u.msq
  elsewhere : SameElsewhere u t
  follows : blocksRun u = true → modeFollowed u.mct
    ((u.setLif (leaveMute u.lif)).setMct { u.mct with hold := { u.mct.hold with mute := false } }) t

theorem leaveIfDue_left {u : State} (due : rejoinDue u.lif = true) : MuteLeft u (leaveIfDue u) := by
  rw [leaveIfDue, if_pos due, muteEnded]
  by_cases runs : blocksRun u = true
  · have left : blocksRun (u.setLif (leaveMute u.lif)) = true := runs
    rw [if_pos left]
    obtain ⟨line, hold, rest, -, stroke, elsewhere, follows⟩ := removeHold_mute (u.setLif (leaveMute u.lif))
    exact ⟨line, fun _ => by rw [hold], rest, stroke,
      SameElsewhere.trans (s := u.setLif (leaveMute u.lif)) ⟨rfl, rfl, rfl, rfl, rfl, rfl, rfl, rfl⟩ elsewhere, fun _ => follows⟩
  · have left : ¬ blocksRun (u.setLif (leaveMute u.lif)) = true := runs
    rw [if_neg left]
    exact ⟨rfl, fun h => absurd h runs, ⟨rfl, rfl⟩, ⟨rfl, rfl⟩, ⟨rfl, rfl, rfl, rfl, rfl, rfl, rfl, rfl⟩, fun h => absurd h runs⟩

/-- The receiver and the rejoin are what the posts of the feed leave too. -/
theorem lineBase_heard {a b : Lif} (h : lineBase a = lineBase b) :
    a.lastSender = b.lastSender ∧ a.rx = b.rx ∧ a.quietUs = b.quietUs ∧ a.overruns = b.overruns ∧ a.silent = b.silent := by
  simp only [lineBase, Lif.mk.injEq] at h
  simp [h]

theorem rejoinDue_of_line {a b : Lif} (h : lineBase a = lineBase b) : rejoinDue a = rejoinDue b := by
  obtain ⟨-, -, -, muted, -, ms, count⟩ := lineBase_kept h
  rw [rejoinDue, rejoinDue, muted, ms, count]

/-- The clean post completes the rejoin count of a timer at 4,000 ms (R172). -/
theorem rejoinDue_cleanHeard (own : Nat) (p : RxPost) (l : Lif) :
    rejoinDue (cleanHeard own p l) = true ↔ l.muted = true ∧ 4000 ≤ l.rejoinMs ∧ 7 ≤ l.rejoinCount := by
  rw [rejoinDue_iff]
  refine and_congr_right fun (muted : l.muted = true) => and_congr_right fun _ => ?_
  have count : (cleanHeard own p l).rejoinCount = min 255 (l.rejoinCount + 1) := if_pos muted
  omega

/-- What a clean post leaves of LIF, the reports of it and the end of MUTE included (R163, R164, R172, R173). -/
theorem cleanPost_line {s : State} {l : Lif} (p : RxPost) : ∃ silent,
    lineBase (leaveIfDue (identityReport (.clean p) (s.setLif l))).lif =
      lineBase { l with
        muted := if rejoinDue l then false else l.muted, bucket := if rejoinDue l then 40 else l.bucket, silent := silent } := by
  obtain ⟨silent, line⟩ := identityReport_line (.clean p) (s.setLif l)
  have sameDue : rejoinDue (identityReport (.clean p) (s.setLif l)).lif = rejoinDue l :=
    (rejoinDue_of_line line).trans rfl
  cases due : rejoinDue l with
  | true =>
    have left := (leaveIfDue_left (sameDue.trans due)).line
    exact ⟨silent, left.trans (congrArg (fun x : Lif => { x with muted := false, bucket := 40 }) line)⟩
  | false => exact ⟨silent, by rw [leaveIfDue_early (sameDue.trans due)]; exact line⟩

/-- POST_RECEIVED at a receiver that hears it (R161 to R163, R172). -/
theorem exec_postReceived {s : State} (runs : lineRuns s = true) (hears : s.lif.rx ≠ .errored) (bytes : List Byte) :
    exec (.postReceived bytes) s = .next (leaveIfDue (identityReport (judgePost bytes)
      (s.setLif (receiveLine (ownStation s) (judgePost bytes) s.lif)))) := by
  have hh : Machine.hears s.lif = true := decide_eq_true hears
  show execPostReceived bytes s = _
  rw [execPostReceived, if_pos runs, hearPost, if_pos hh, receivePost]

theorem receive_error {s : State} {v : Verdict} {l : Lif} (error : ∀ p, v ≠ .clean p) (early : rejoinDue l = false) :
    leaveIfDue (identityReport v (s.setLif l)) = s.setLif l := by
  have report : identityReport v (s.setLif l) = s.setLif l := by
    cases v with
    | clean p => exact absurd rfl (error p)
    | _ => exact if_neg fun h => absurd h.1 (by simp [isIdentityPost])
  rw [report]
  exact leaveIfDue_early early

theorem trafficEnded_due (l : Lif) : rejoinDue (trafficEnded l) = rejoinDue l := rfl

theorem identityClash_put (s : State) : (identityClash s).mct.safe.identityClash = true ∧ (identityClash s).pvw.identityClash = true ∧
    (identityClash s).lif.silent = true := by
  refine ⟨?_, ?_, rfl⟩
  · obtain ⟨safe, -⟩ := addSafe_mct .identityClash (s.setPvw { s.pvw with identityClash := true })
    show (addSafe .identityClash (s.setPvw { s.pvw with identityClash := true })).mct.safe.identityClash = true
    rw [safe]
    rfl
  · simp [identityClash]

/-- The end of MUTE leaves a clash and its silence. -/
theorem leaveIfDue_clash (u : State) : (leaveIfDue u).mct.safe = u.mct.safe ∧ (leaveIfDue u).pvw = u.pvw ∧
    (leaveIfDue u).lif.silent = u.lif.silent := by
  cases due : rejoinDue u.lif with
  | true =>
    obtain ⟨line, -, rest, -, elsewhere, -⟩ := leaveIfDue_left due
    exact ⟨rest.1, elsewhere.pvw, (lineBase_heard line).2.2.2.2⟩
  | false => rw [leaveIfDue_early due]; exact ⟨rfl, rfl, rfl⟩

theorem cleanHeard_untaken {s : State} {p : RxPost} (h : ¬ takenHere s p) : cleanHeard (ownStation s) p s.lif =
    { s.lif with
      lastSender := p.sender, rx := .ready, quietUs := 0, byteLeftUs := 0
      rejoinCount := (cleanHeard (ownStation s) p s.lif).rejoinCount } := by
  have no : ¬ takesPost (ownStation s) p = true := (takesPost_iff s p).not.2 h
  simp [cleanHeard, no]

/-- Settles O44: one error a post, and what a clean post brings. -/
theorem receiverEvents : Obligations.ReceiverEvents := by
  refine fun s runs => ⟨fun waits => ⟨fun quiet => ?_, fun bytes => ?_⟩, fun quiet => congrArg Host.Outcome.next (if_pos runs),
    fun hears => ⟨fun quiet => ?_, fun bytes => ⟨fun bad => ?_, fun bad => ?_, fun p clean => ⟨_, exec_postReceived runs hears bytes, ?_⟩⟩⟩⟩
  · show execFramingError s quiet = _
    rw [execFramingError, if_pos runs, framingErrorLine_errored waits, errorPassed_eq]
    simp [waits, Nat.mul_div_cancel _ (bitTimeUs_pos _)]
  · have hh : Machine.hears s.lif = false := by simp [Machine.hears, waits]
    show execPostReceived bytes s = _
    rw [execPostReceived, if_pos runs, hearPost, if_neg (by simp [hh])]
    rfl
  · have hh : Machine.hears s.lif = true := decide_eq_true hears
    show execFramingError s quiet = _
    rw [execFramingError, if_pos runs, framingErrorLine, if_pos hh, errorPassed_eq, countFraming, rejoinRestart_eq]
    simp [errorHeard, satAdd, Nat.mul_div_cancel _ (bitTimeUs_pos _)]
  · have hh : Machine.hears s.lif = true := decide_eq_true hears
    have report := receive_error (s := s) (v := .framing) (l := trafficEnded (countFraming s.lif)) (fun _ h => nomatch h)
      (rejoinDue_countFraming s.lif)
    rw [exec_postReceived runs hears, bad, receiveLine, if_pos hh]
    refine congrArg Host.Outcome.next (report.trans ?_)
    rw [countFraming, rejoinRestart_eq]
    rfl
  · have hh : Machine.hears s.lif = true := decide_eq_true hears
    have report := receive_error (s := s) (v := .check) (l := trafficEnded (countCheck s.lif)) (fun _ h => nomatch h)
      (rejoinDue_countCheck s.lif)
    rw [exec_postReceived runs hears, bad, receiveLine, if_pos hh]
    refine congrArg Host.Outcome.next (report.trans ?_)
    rw [countCheck, rejoinRestart_eq]
    rfl
  · rw [clean, receiveLine_clean hears]
    generalize hl : cleanHeard (ownStation s) p s.lif = l
    have due : rejoinDue l = true ↔ s.lif.muted = true ∧ 4000 ≤ s.lif.rejoinMs ∧ 7 ≤ s.lif.rejoinCount := by
      rw [← hl]; exact rejoinDue_cleanHeard _ p s.lif
    have lastSender : l.lastSender = p.sender := by rw [← hl]; rfl
    have rx : l.rx = .ready := by rw [← hl]; rfl
    have quiet : l.quietUs = 0 := by rw [← hl]; rfl
    have rejoin : l.rejoinCount = if s.lif.muted then min 255 (s.lif.rejoinCount + 1) else s.lif.rejoinCount := by rw [← hl]; rfl
    have fifo : l.fifo = if takesPost (ownStation s) p = true ∧ s.lif.fifo.length < 2 then s.lif.fifo ++ [p] else s.lif.fifo := by
      rw [← hl]; rfl
    have overruns : l.overruns =
        if takesPost (ownStation s) p = true ∧ 2 ≤ s.lif.fifo.length then min 65535 (s.lif.overruns + 1) else s.lif.overruns := by
      rw [← hl]; rfl
    have other (h : p.sender ≠ ownStation s ∨ ownStation s = 0) : identityReport (.clean p) (s.setLif l) = s.setLif l :=
      identityReport_other h
    obtain ⟨silent, line⟩ := cleanPost_line (s := s) (l := l) p
    obtain ⟨tSender, tRx, tQuiet, tOverruns, -⟩ := lineBase_heard line
    obtain ⟨tFifo, -, -, tMuted, tBucket, -, tCount⟩ := lineBase_kept line
    refine ⟨tSender.trans lastSender, tRx.trans rx, tQuiet.trans quiet, tCount.trans rejoin, fun taken room => ?_, fun taken full => ?_,
      fun untaken => ?_, fun own low high blocks => ?_, fun isDue => ?_, fun early => ?_⟩
    · have takes := (takesPost_iff s p).2 taken
      rw [tFifo, tOverruns]
      exact ⟨fifo.trans (if_pos ⟨takes, room⟩), overruns.trans (if_neg fun h => by omega)⟩
    · have takes := (takesPost_iff s p).2 taken
      rw [tFifo, tOverruns]
      exact ⟨fifo.trans (if_neg fun h => by omega), overruns.trans (if_pos ⟨takes, full⟩)⟩
    · have no := (takesPost_iff s p).not.2 untaken
      rw [tFifo, tOverruns]
      exact ⟨fifo.trans (if_neg fun h => no h.1), overruns.trans (if_neg fun h => no h.1)⟩
    · have clash : identityReport (.clean p) (s.setLif l) = identityClash (s.setLif l) :=
        identityReport_own (s := s.setLif l) own low high blocks
      obtain ⟨safe, pvw, silent⟩ := leaveIfDue_clash (identityReport (.clean p) (s.setLif l))
      obtain ⟨putSafe, putPvw, putSilent⟩ := identityClash_put (s.setLif l)
      rw [clash] at safe pvw silent tCount ⊢
      refine ⟨by rw [safe]; exact putSafe, by rw [pvw]; exact putPvw, by rw [silent]; exact putSilent, fun early => ?_⟩
      have notDue : rejoinDue (identityClash (s.setLif l)).lif = false :=
        (rejoinDue_of_line (identityClash_line (s.setLif l))).trans (Bool.eq_false_iff.2 (due.not.2 early))
      have alone : l = { s.lif with
          lastSender := p.sender, rx := .ready, quietUs := 0, byteLeftUs := 0, rejoinCount := l.rejoinCount } := by
        have := cleanHeard_untaken (s := s) (p := p) fun h => h.1 own
        rwa [hl] at this
      rw [tCount, ← alone, leaveIfDue_early notDue]
      exact ⟨_, rfl, addSafe_spec .identityClash _⟩
    · have left := due.2 isDue
      obtain ⟨_, reported⟩ := identityReport_line (.clean p) (s.setLif l)
      have muteLeft : rejoinDue (identityReport (.clean p) (s.setLif l)).lif = true := (rejoinDue_of_line reported).trans left
      obtain ⟨-, hold, rest, stroke, elsewhere, follows⟩ := leaveIfDue_left muteLeft
      refine ⟨tMuted.trans (if_pos left), tBucket.trans (if_pos left), fun blocks => hold ((identityReport_runs _ _).trans blocks),
        fun h => ?_⟩
      rw [other h] at rest stroke elsewhere follows tCount tFifo tOverruns ⊢
      refine ⟨rest.1, rest.2, stroke.1, stroke.2,
        SameElsewhere.trans (s := s.setLif l) ⟨rfl, rfl, rfl, rfl, rfl, rfl, rfl, rfl⟩ elsewhere, fun blocks => ?_⟩
      rw [tCount, tFifo, tOverruns]
      have leaves : leaveMute l = { s.lif with
          lastSender := p.sender, rx := .ready, quietUs := 0, byteLeftUs := 0, rejoinCount := l.rejoinCount, fifo := l.fifo,
          overruns := l.overruns, muted := false, bucket := 40 } := by rw [← hl]; rfl
      rw [← leaves]
      exact follows blocks
    · have notDue : rejoinDue l = false := Bool.eq_false_iff.2 (due.not.2 early)
      refine ⟨(tMuted.trans (if_neg (by simp [notDue]))).trans (by rw [← hl]; rfl), fun h => ?_⟩
      have same : leaveIfDue (identityReport (.clean p) (s.setLif l)) = s.setLif l := by rw [other h]; exact leaveIfDue_early notDue
      rw [same]
      exact ⟨rfl, by rw [← hl]; rfl⟩

end Sys2Proof.Machine
end

section
/-! The SAFE entry (R137, R140, R141, R143), the coils (R68), and the times of a stroke (R66, R69 to R74). -/

namespace Sys2Proof.Machine

/-! ### The SAFE entry -/

/-- A state set on its way to SAFE: the cut made and the cause put in (R78, R141). -/
def safeCut (c : SafeCause) (s : State) : State :=
  ((s.setSsq (cutLeaves s)).setMsq (cutWithdraws s)).setMct { s.mct with safe := safePut s.mct.safe c true }

/-- The first SAFE cause: the cut, what follows the change of mode, and the HALT post of its reason (R141, R143). -/
theorem addSafe_first {c : SafeCause} {why : HaltReason} (reason : haltReasonOf c = some why) {s : State} (calm : s.mct.safe = noSafe) :
    addSafe c s = queueHalt { kind := .climb, reason := why } (afterCauses s.mct (safeCut c s)) := by
  have new : ¬ safeHas s.mct.safe c = true := by rw [calm]; cases c <;> simp [safeHas, noSafe]
  rw [addSafe, if_neg new, if_pos calm, cutStroke_eq, haltForEntry, reason]
  rfl

theorem safePut_ne (f : SafeSet) (c : SafeCause) : safePut f c true ≠ noSafe := fun h => by
  have member : safeHas (safePut f c true) c = true := by cases c <;> rfl
  rw [h] at member
  cases c <;> cases member

theorem safePut_clash (c : SafeCause) : (safePut noSafe c true).identityClash = decide (c = .identityClash) := by
  cases c <;> rfl

theorem safeCut_mode (c : SafeCause) (s : State) : modeOf (safeCut c s).mct = .safe :=
  (modeOf_safe_iff _).2 (safePut_ne _ _)

/-- A cut leaves a phase other than IDLE where it finds one. -/
theorem cutLeaves_phase (s : State) : (cutLeaves s).phase = .idle ↔ s.ssq.phase = .idle := by
  unfold cutLeaves
  split
  · next h => simp [h]
  · split
    · next h => simp [h]
    · exact Iff.rfl

/-- The SAFE entry settles a stroke in flight (R140). -/
theorem safeCut_settles (c : SafeCause) {s : State} (calm : s.mct.safe = noSafe) (busy : s.ssq.phase ≠ .idle) :
    (afterCauses s.mct (safeCut c s)).mct.settling = true := by
  have before : modeOf s.mct ≠ .safe := fun h => (modeOf_safe_iff _).1 h calm
  have settle : settlesNow (decide ((safeCut c s).ssq.phase ≠ .idle)) s.mct (safeCut c s).mct = true :=
    (settlesNow_iff _ _ _).2 ⟨decide_eq_true ((cutLeaves_phase s).not.2 busy), .inr (.inl ⟨before, safeCut_mode c s⟩)⟩
  rw [afterCauses_mct, settle]
  simp

/-- A pour block that begins in POURING with the gate OPENING or OPEN ends the pour (R100, R109). -/
theorem blockTested_pouring {u t : State} (h : blockTested u t) (blocked : blockedNow u) (free : u.fct.blocked = false)
    (pours : u.fct.pour = .pouring) (limit : u.pins.gateClosedLimit = false) (gate : u.fct.gate = .opening ∨ u.fct.gate = .opened) :
    t.fct.pour = .ending ∧ t.fct.gate = .closing := by
  have ended := ((h.2.2.1 blocked free).2.2.2 pours).2 gate
  rw [ended.1 limit]
  exact ⟨rfl, rfl⟩

/-- The mode SAFE entered ends a pour (R99, R100). -/
theorem modeFollowed_pouring {m : Mct} {s t : State} (h : modeFollowed m s t) (safe : modeOf s.mct = .safe)
    (free : s.fct.blocked = false) (pours : s.fct.pour = .pouring) (limit : s.pins.gateClosedLimit = false)
    (gate : s.fct.gate = .opening ∨ s.fct.gate = .opened) : t.fct.pour = .ending ∧ t.fct.gate = .closing := by
  obtain ⟨u, b, tested, -, hu⟩ := h
  have fct : u.fct = s.fct ∧ u.pins = s.pins := by rw [hu]; exact ⟨rfl, rfl⟩
  have mode : modeOf u.mct = .safe := by rw [hu]; exact safe
  exact blockTested_pouring tested (.inl mode) (by rw [fct.1]; exact free) (by rw [fct.1]; exact pours)
    (by rw [fct.2]; exact limit) (by rw [fct.1]; exact gate)

@[simp] theorem queueHalt_feed (p : HaltPost) (s : State) : (queueHalt p s).fct = s.fct ∧ (queueHalt p s).msq = s.msq := by
  unfold queueHalt
  split <;> exact ⟨rfl, rfl⟩

/-- The first SAFE cause with a reason of its own makes the SAFE entry (R137, R140, R141, R143). -/
theorem addSafe_entered {c : SafeCause} {why : HaltReason} (reason : haltReasonOf c = some why) {s : State}
    (calm : s.mct.safe = noSafe) : SafeEntered why s (addSafe c s) := by
  obtain ⟨safe, hold, base, -⟩ := addSafe_mct c s
  have first := addSafe_first reason calm
  have line := modeFollowed_line (afterCauses_spec s.mct (safeCut c s))
  have halt := queueHalt_spec { kind := .climb, reason := why } (afterCauses s.mct (safeCut c s))
  have queued : (afterCauses s.mct (safeCut c s)).mct.queuedHalt = s.mct.queuedHalt := by rw [afterCauses_mct]; rfl
  have station : ownStation (afterCauses s.mct (safeCut c s)) = ownStation s := by simp [ownStation, safeCut]
  have clash : (afterCauses s.mct (safeCut c s)).mct.safe.identityClash = false := by
    rw [afterCauses_mct]
    show (safePut s.mct.safe c true).identityClash = false
    rw [calm]
    rw [safePut_clash, decide_eq_false_iff_not]
    rintro rfl
    cases reason
  refine ⟨?_, ⟨base, hold⟩, fun busy => ?_, fun set low => ?_, fun all => ?_, fun free pours limit gate => ?_, ?_, ?_⟩
  · exact (modeOf_safe_iff _).2 (by rw [safe]; exact safePut_ne _ _)
  · rw [first, (queueHalt_safe _ _).2.2.2]
    exact safeCut_settles c calm busy
  · rw [first, halt.2 (by rw [station]; exact set) clash (.inr (by rw [queued]; exact low))]
    refine ⟨rfl, ?_⟩
    simp [queueHaltPost, fillSlot_post]
  · rw [first, halt.1 (.inr (.inr ⟨rfl, by rw [queued]; exact all⟩))]
    exact ⟨queued, (lineBase_kept line).2.1⟩
  · rw [first, (queueHalt_feed _ _).1]
    exact modeFollowed_pouring (afterCauses_spec s.mct (safeCut c s)) (safeCut_mode c s) free pours limit gate
  · rw [first, (queueHalt_feed _ _).2]
    simp [safeCut]
  · exact ⟨by simp, by simp, by simp, by simp, by simp, by simp, by simp, by simp⟩

/-! ### The coils (R68) -/

theorem exec_coilCheck {s : State} (runs : blocksRun s = true) (coil : Coil) (isOpen : Bool) : exec (.coilCheck coil isOpen) s =
    .next (if isOpen then addSafe .valve (s.setSsq (coilChecked coil isOpen s.ssq)) else s.setSsq (coilChecked coil isOpen s.ssq)) :=
  congrArg Host.Outcome.next (if_pos runs)

/-- A coil's mark leaves what a SAFE entry reads of the stroke. -/
theorem SafeEntered.of_checked {why : HaltReason} {coil : Coil} {isOpen : Bool} {s t : State}
    (h : SafeEntered why (s.setSsq (coilChecked coil isOpen s.ssq)) t) : SafeEntered why s t := by
  obtain ⟨mode, base, settling, halt, kept, pour, converter, elsewhere⟩ := h
  have phase : (coilChecked coil isOpen s.ssq).phase = s.ssq.phase := by cases coil <;> rfl
  refine ⟨mode, base, fun busy => settling (by rw [State.setSsq_ssq, phase]; exact busy), halt, kept, pour, ?_,
    elsewhere.pvw, elsewhere.cpl, elsewhere.srs, elsewhere.ldr, elsewhere.pins, elsewhere.nowMs, elsewhere.freeCount, elsewhere.pending⟩
  rw [converter, cutWithdraws, State.setSsq_ssq, phase]
  rfl

/-- The cut leaves the coils' marks. -/
theorem cutLeaves_checked (coil : Coil) (isOpen : Bool) (s : State) :
    cutLeaves (s.setSsq (coilChecked coil isOpen s.ssq)) = coilChecked coil isOpen (cutLeaves s) := by
  have phase : (coilChecked coil isOpen s.ssq).phase = s.ssq.phase := by cases coil <;> rfl
  unfold cutLeaves
  rw [State.setSsq_ssq, phase]
  by_cases pressurize : s.ssq.phase = .pressurize
  · rw [if_pos pressurize, if_pos pressurize]
    cases coil <;> rfl
  · rw [if_neg pressurize, if_neg pressurize]
    by_cases lift : s.ssq.phase = .lift
    · rw [if_pos lift, if_pos lift]
      cases coil <;> rfl
    · rw [if_neg lift, if_neg lift]

/-- Settles O55: the SAFE entry of an open coil is that of R141, the coil's mark beside it. -/
theorem coilCheck : Obligations.CoilCheck := by
  refine fun coil s runs => ⟨?_, _, exec_coilCheck runs coil true, ?_, ?_, fun calm => ⟨?_, ?_⟩, fun held => ?_⟩
  · rw [exec_coilCheck runs coil false]
    cases coil <;> rfl
  · exact (addSafe_mct .valve _).1
  · cases coil <;> exact addSafe_spec .valve _
  · rw [if_pos rfl]
    exact (addSafe_entered (c := .valve) (s := s.setSsq (coilChecked coil true s.ssq)) rfl calm).of_checked
  · rw [if_pos rfl, addSafe_first (c := .valve) (s := s.setSsq (coilChecked coil true s.ssq)) rfl calm]
    have ssq : (queueHalt { kind := .climb, reason := .valve } (afterCauses s.mct
        (safeCut .valve (s.setSsq (coilChecked coil true s.ssq))))).ssq = cutLeaves (s.setSsq (coilChecked coil true s.ssq)) := by
      simp [safeCut]
    refine ssq.trans ?_
    rw [cutLeaves_checked]
    cases coil <;> rfl
  · have joined := (addSafe_spec .valve (s.setSsq (coilChecked coil true s.ssq))).1 held
    rw [if_pos rfl, joined]
    cases coil <;> rfl

/-! ### The times of a stroke (R66, R69 to R74) -/

theorem substituted_eq (t : ChanTable) : substituted t = copyNow t := rfl

/-- A trigger taken at once or pending hands nothing over; a lost one hands over the substituted copy (R122, R125, R126). -/
theorem fireTrigger_taken {s : State} (tag : Tag) (h : s.msq.chain = none ∨ s.msq.pendingTrigger = none) :
    fireTrigger tag s = s.setMsq (triggered tag s.msq) := by
  have kept : triggerLoss s.msq = none := by
    unfold triggerLoss
    rcases h with h | h
    · rw [h]
    · rw [h]; split <;> simp_all
  rw [fireTrigger, kept, triggerMsq_eq]

theorem fireTrigger_lost {s : State} (tag : Tag) (chain : s.msq.chain ≠ none) (waits : s.msq.pendingTrigger ≠ none) :
    fireTrigger tag s = deliverSample tag (copyNow s.msq.table) (s.setMsq (triggered tag s.msq)) := by
  obtain ⟨c, hc⟩ := Option.ne_none_iff_exists'.1 chain
  obtain ⟨p, hp⟩ := Option.ne_none_iff_exists'.1 waits
  have lost : triggerLoss s.msq = some (substituted s.msq.table) := by rw [triggerLoss, hc, hp]
  rw [fireTrigger, lost, triggerMsq_eq, substituted_eq]

/-- Out of SETTLE a sample set is stored, and no more (R123). -/
theorem deliverSample_stored {tag : Tag} (ht : tag ≠ .finish) {s : State} {st : Stroke} (hs : s.ssq.stroke = some st) (p : Sample) :
    deliverSample tag p s = s.setSsq { s.ssq with stroke := some (storeSample tag p st) } := by
  rw [deliverSample, hs]
  exact if_neg fun h => ht h.1

theorem triggered_idle {tag : Tag} {m : Msq} (h : m.chain = none) :
    triggered tag m = { m with chain := some { tag := tag, done := [] } } := if_pos h

theorem triggered_pending {tag : Tag} {m : Msq} (chain : m.chain ≠ none) (h : m.pendingTrigger = none) :
    triggered tag m = { m with pendingTrigger := some tag } := by rw [triggered, if_neg chain, if_pos h]

theorem triggered_lost {tag : Tag} {m : Msq} (chain : m.chain ≠ none) (h : m.pendingTrigger ≠ none) :
    triggered tag m = { m with overrun := true } := by rw [triggered, if_neg chain, if_neg h]

theorem liftElapsed_eq {s : State} {st : Stroke} {since : Nat} (hs : s.ssq.stroke = some st) (hl : st.liftEntry = some since) :
    liftElapsed s = min (s.nowMs - since) (s.srs.active.liftTimeout * 1000).toNat := by
  simp [liftElapsed, elapsedMs, liftTimeoutMs, hs, hl]

/-- Settles O54: each time in its phase. -/
theorem strokeTimes : Obligations.StrokeTimes := by
  refine ⟨fun s st since hs hl => ?_, fun s runs => ⟨congrArg Host.Outcome.next (if_pos runs), fun phase => ?_⟩,
    fun st s runs hs => ⟨fun phase => ?_, fun phase => ?_, fun phase since hl => ?_, fun phase unfired => ?_, fun phase => ?_,
      fun phase => ?_⟩⟩
  · exact liftElapsed_eq hs hl
  · show execTopLimitCapture s = _
    rw [execTopLimitCapture, if_pos runs, if_neg phase]
    rfl
  · show execPressurizeTimeout s = _
    rw [execPressurizeTimeout, if_pos ⟨runs, phase⟩, leavePressurize, hs]
    rfl
  · show execLiftTimeout s = _
    rw [execLiftTimeout, if_pos ⟨runs, phase⟩, leaveLift, hs]
    rfl
  · show execTopLimitCapture s = _
    rw [execTopLimitCapture, if_pos runs, if_pos phase, leaveLift, liftElapsed_eq hs hl, hs]
    rfl
  · have fire : exec .topTrigger s = .next (fireTop st s) := by
      show execTopTrigger s = _
      rw [execTopTrigger, hs]
      exact congrArg Host.Outcome.next (if_pos ⟨runs, phase, unfired⟩)
    have msq : (s.setSsq { s.ssq with stroke := some { st with topFired := true } }).msq = s.msq := rfl
    rw [fire, fireTop]
    refine ⟨fun idle => ?_, fun chain waits => ?_, fun chain waits => ?_⟩
    · rw [fireTrigger_taken .top (by rw [msq]; exact .inl idle), msq, triggered_idle idle]
    · rw [fireTrigger_taken .top (by rw [msq]; exact .inr waits), msq, triggered_pending chain waits]
    · rw [fireTrigger_lost .top (by rw [msq]; exact chain) (by rw [msq]; exact waits), msq, triggered_lost chain waits]
      rw [deliverSample_stored (tag := .top) (st := { st with topFired := true }) nofun rfl]
      rfl
  · show execTopdwellEnd s = _
    rw [execTopdwellEnd, if_pos ⟨runs, phase⟩, enterRelease, hs]
    rfl
  · have settle : exec .releaseTimeout s = .next (enterSettle releaseTimedOut s) :=
      congrArg Host.Outcome.next (if_pos ⟨runs, phase⟩)
    rw [settle]
    obtain ⟨taken, lost⟩ := enterSettle_spec releaseTimedOut hs
    refine ⟨fun idle => ?_, fun chain waits => ?_, fun chain waits done hd => ?_⟩
    · rw [taken (.inl idle), triggered_idle idle]; rfl
    · rw [taken (.inr waits), triggered_pending chain waits]; rfl
    · rw [lost chain waits done hd, triggered_lost chain waits]

end Sys2Proof.Machine
end

section
/-! The supply (R195, R198, R199, R201) and the steps of a start (R196, R200). -/

namespace Sys2Proof.Machine

/-! ### The supply -/

/-- The node stopped with a write of the stored block torn or none in progress (R195, R198): the life, the stored block and the
write alone change. -/
structure StoppedTorn (y t : State) : Prop where
  same : t = (y.setSrs { y.srs with
    life := .stopped, stored := t.srs.stored, write := none, writesWaiting := t.srs.writesWaiting }).setFreeCount t.freeCount
  whole : y.srs.write = none → t.srs.stored = y.srs.stored ∧ t.freeCount = y.freeCount
  torn : y.srs.write ≠ none → ∃ b, t.srs.stored = some b ∧ b.checkAgrees = false

theorem stoppedTorn (y : State) : StoppedTorn y (stopNode (tearWrite y)) := by
  cases hw : y.srs.write with
  | none =>
    have whole : tearWrite y = y := by rw [tearWrite, hw]
    rw [whole]
    refine ⟨?_, fun _ => ⟨rfl, rfl⟩, fun h => absurd hw h⟩
    rw [← hw]
    rfl
  | some w =>
    have torn : tearWrite y = (y.setSrs { y.srs with
        stored := some (tornBlock y.freeCount), write := none, writesWaiting := [] }).setFreeCount (y.freeCount + 1) := by
      rw [tearWrite, hw]
    rw [torn]
    exact ⟨rfl, fun h => (nomatch hw.symm.trans h), fun _ => ⟨_, rfl, tornBlock_disagrees _⟩⟩

/-- What the stop brings from a state that a save, or none, has made of `s`. -/
theorem StoppedTorn.stops {s y t : State} (h : StoppedTorn y t) (srs : y.srs = { s.srs with
      area := y.srs.area, areaValid := y.srs.areaValid, outage := y.srs.outage })
    (kept : y.lif = s.lif ∧ y.pvw = s.pvw ∧ y.cpl = s.cpl ∧ y.mct = s.mct ∧ y.ors = s.ors ∧ y.pins = s.pins ∧
      y.freeCount = s.freeCount) :
    t.srs.life = .stopped ∧ t.srs.write = none ∧
      (s.srs.write = none → t.srs.stored = s.srs.stored ∧ t.freeCount = s.freeCount) ∧
      (s.srs.write ≠ none → ∃ b, t.srs.stored = some b ∧ b.checkAgrees = false) ∧
      t.lif = s.lif ∧ t.pvw = s.pvw ∧ t.cpl = s.cpl ∧ t.mct = s.mct ∧ t.ors = s.ors ∧ t.pins = s.pins ∧
      t.srs.active = s.srs.active ∧ t.srs.staged = s.srs.staged ∧ t.srs.loadResult = s.srs.loadResult := by
  obtain ⟨same, whole, torn⟩ := h
  obtain ⟨lif, pvw, cpl, mct, ors, pins, free⟩ := kept
  have write : y.srs.write = s.srs.write := by rw [srs]
  have stored : y.srs.stored = s.srs.stored := by rw [srs]
  have settings : y.srs.active = s.srs.active ∧ y.srs.staged = s.srs.staged ∧ y.srs.loadResult = s.srs.loadResult := by
    rw [srs]; exact ⟨rfl, rfl, rfl⟩
  rw [write] at whole torn
  rw [stored, free] at whole
  refine ⟨?_, ?_, whole, torn, ?_⟩
  · rw [same]; rfl
  · rw [same]; rfl
  · rw [same]
    exact ⟨lif, pvw, cpl, mct, ors, pins, settings⟩

/-- The state that the stop finds (R198, R201). -/
def atStop (holdUp : Bool) (s : State) : State :=
  if s.srs.life = .restarting ∨ s.ors.restartWaiting = true then clearRestartMark s
  else if holdUp then saveArea false s else failedSave s

theorem powerFailed_running (holdUp : Bool) {s : State} (running : s.srs.life ≠ .stopped) :
    powerFailed holdUp s = stopNode (tearWrite (atStop holdUp s)) := by
  unfold powerFailed atStop
  cases life : s.srs.life with
  | stopped => exact absurd life running
  | restarting => simp
  | up => cases s.ors.restartWaiting <;> cases holdUp <;> simp

theorem atStop_kept (holdUp : Bool) (s : State) :
    (atStop holdUp s).srs = { s.srs with
      area := (atStop holdUp s).srs.area, areaValid := (atStop holdUp s).srs.areaValid, outage := (atStop holdUp s).srs.outage } ∧
    ((atStop holdUp s).lif = s.lif ∧ (atStop holdUp s).pvw = s.pvw ∧ (atStop holdUp s).cpl = s.cpl ∧
      (atStop holdUp s).mct = s.mct ∧ (atStop holdUp s).ors = s.ors ∧ (atStop holdUp s).pins = s.pins ∧
      (atStop holdUp s).freeCount = s.freeCount) := by
  unfold atStop
  (repeat' split) <;> exact ⟨rfl, rfl, rfl, rfl, rfl, rfl, rfl, rfl⟩

/-- Settles O51: the save that the hold-up outlasts, the one it does not, and none while a restart waits or runs. -/
theorem supplyEvents : Obligations.SupplyEvents := by
  refine fun s => ⟨fun holdUp => ⟨powerFailed holdUp s, rfl, fun stopped => ?_, fun running => ?_, fun up calm => ?_, fun waits => ?_⟩,
    rfl, rfl⟩
  · rw [powerFailed, stopped]
  · rw [powerFailed_running holdUp running]
    exact (stoppedTorn _).stops (atStop_kept holdUp s).1 (atStop_kept holdUp s).2
  · rw [powerFailed_running holdUp (by rw [up]; nofun)]
    have saves : atStop holdUp s = if holdUp then saveArea false s else failedSave s := if_neg (by simp [up, calm])
    obtain ⟨same, -, -⟩ := stoppedTorn (atStop holdUp s)
    rw [same, saves]
    cases holdUp with
    | true => exact ⟨⟨rfl, rfl, rfl, rfl⟩, rfl, fun _ => ⟨rfl, rfl, _, rfl, areaSaved_retainedOf false s⟩, nofun⟩
    | false => exact ⟨⟨rfl, rfl, rfl, rfl⟩, rfl, nofun, fun _ => rfl⟩
  · have running : s.srs.life ≠ .stopped := by rcases waits with h | ⟨h, -⟩ <;> rw [h] <;> nofun
    have marks : atStop holdUp s = clearRestartMark s := if_pos (waits.imp id And.right)
    rw [powerFailed_running holdUp running]
    obtain ⟨same, -, -⟩ := stoppedTorn (atStop holdUp s)
    rw [same, marks]
    exact ⟨rfl, rfl, rfl, rfl, rfl⟩

/-! ### Step 4 of a start, and its end -/

theorem calibratesAtStart_iff (s : State) : calibratesAtStart s = true ↔
    s.srs.calibrationPending = true ∧ s.srs.loadResult = .good ∧ modeOf s.mct = .setup ∧ s.lco.known = true ∧
      (∀ r ∈ s.lco.column, s.srs.active.mRel ≤ (r.maturity : Int)) ∧ s.ssq.phase = .idle := by
  simp [calibratesAtStart, clearForCalibration, and_assoc]

/-- The cycle timer starts while the blocks run (R47, R200). -/
theorem startCycle_eq (s : State) : startCycle s = s.setCpl (if blocksRun s then { s.cpl with cycleMs := some 0 } else s.cpl) := by
  unfold startCycle
  split <;> rfl

/-- LIF at the end of the join listen (R174). -/
theorem joinLine_line (s : State) :
    (joinLine s).lif =
      { s.lif with
        levelMs := some 0, access := true, levelSlot := (joinLine s).lif.levelSlot, nextStamp := (joinLine s).lif.nextStamp } ∧
    (ownStation s = 0 → (joinLine s).lif.levelSlot = s.lif.levelSlot) ∧
    (ownStation s ≠ 0 → (joinLine s).lif.levelSlot.isSome = true) := by
  have slot : (joinLine s).lif = { wantLevelPost (ownStation s) s.lif with levelMs := some 0, access := true } := rfl
  rw [slot, wantLevelPost]
  by_cases station : ownStation s = 0
  · rw [if_pos station]
    exact ⟨rfl, fun _ => rfl, fun set => absurd station set⟩
  · rw [if_neg station]
    refine ⟨rfl, fun unset => absurd unset station, fun _ => ?_⟩
    simp [fillSlot_eq]

/-- Settles O50: step 4's decision, and the end of the join listen. -/
theorem startSteps : Obligations.StartSteps := by
  intro s runs
  have step (deciding : s.srs.step = .deciding) : exec .startCalibrationStep s = .next (calibrationStep s) :=
    congrArg Host.Outcome.next (if_pos ⟨runs, deciding⟩)
  refine ⟨fun deciding blocks waits => ?_, fun deciding waits => ?_, fun deciding blocks passed => ⟨_, step deciding, fun all => ?_,
    fun some => ?_⟩, fun listens => ⟨_, congrArg Host.Outcome.next (if_pos ⟨runs, listens⟩), ?_⟩⟩
  · rw [step deciding, calibrationStep, if_pos blocks, if_neg (by simp [waits])]
  · rw [step deciding, calibrationStep, if_neg (by simp [waits])]
    rfl
  · rw [calibrationStep, if_pos blocks, if_pos passed, decideStart, if_pos ((calibratesAtStart_iff s).2 all)]
    exact startStroke_spec _ _ _
  · rw [calibrationStep, if_pos blocks, if_pos passed, decideStart, if_neg ((calibratesAtStart_iff s).not.2 some)]
    rfl
  · rw [startCycle_eq]
    exact ⟨rfl, joinLine_line _⟩

end Sys2Proof.Machine
end

section
/-! The planner (spec chapter 3, R41, R42, R49 to R60). -/

namespace Sys2Proof.Machine

/-! ### The reference (R42, R51) -/

theorem meanOf_eq {hs : List Int} (h : hs ≠ []) : meanOf hs = some (hs.sum / hs.length) := by simp [meanOf, h]

/-- A qualifying entry or a valid own height gives the ring a height (R42). -/
theorem nodeHeights_ne_nil {s : State} (h : (∃ p ∈ s.pvw.peers, Qualifying s p) ∨ s.ssq.heightValid = true) : nodeHeights s ≠ [] := by
  obtain ⟨qs, -, found, heights⟩ := nodeHeights_spec s
  rw [heights]
  rcases h with ⟨p, hp, hq⟩ | hv
  · have : p ∈ qs := (found p hp).2 hq
    exact fun h => by simp_all
  · simp [hv]

theorem FoundBy.qualifying {sectorAt : Nat → Nat} {s : State} {p : Peer} (h : FoundBy sectorAt s p) : Qualifying s p := by
  obtain ⟨_, -, -, -, found, -⟩ := h
  exact found

theorem currentReference_two {s : State} {a b : Peer} (h : nodeNeighbours s = .two a b) : currentReference s =
    { basis := .twoNeighbours,
      href := some ((a.height + b.height + 2 * ((nodeHeights s).sum / (nodeHeights s).length)) / 4) } := by
  have found := ((nodeNeighbours_spec s).1 a b h).1.qualifying
  have ring : nodeHeights s ≠ [] := nodeHeights_ne_nil (.inl ⟨a, found.entry, found⟩)
  simp only [currentReference, h, referenceOf, meanOf_eq ring]

theorem currentReference_one {s : State} {a : Peer} (h : nodeNeighbours s = .one a) : currentReference s =
    { basis := .oneNeighbour, href := some ((a.height + (nodeHeights s).sum / (nodeHeights s).length) / 2) } := by
  have found : Qualifying s a := by
    rcases (nodeNeighbours_spec s).2.1 a h with ⟨found, -⟩ | ⟨found, -⟩
    · exact found.qualifying
    · exact found.qualifying
  have ring : nodeHeights s ≠ [] := nodeHeights_ne_nil (.inl ⟨a, found.entry, found⟩)
  simp only [currentReference, h, referenceOf, meanOf_eq ring]

theorem currentReference_none {s : State} (h : nodeNeighbours s = .none) : currentReference s =
    if 1 < (nodeHeights s).length then { basis := .ring, href := some ((nodeHeights s).sum / (nodeHeights s).length) }
    else if s.ssq.heightValid then { basis := .self, href := some s.ssq.height } else { basis := .noBasis, href := none } := by
  by_cases ring : nodeHeights s = []
  · have invalid : s.ssq.heightValid = false := by
      rw [← Bool.not_eq_true]
      exact fun valid => nodeHeights_ne_nil (.inr valid) ring
    simp [currentReference, h, referenceOf, meanOf, ring, invalid]
  · simp only [currentReference, h, referenceOf, meanOf_eq ring]

/-! ### The form (R50) -/

theorem currentForm_eq (s : State) : currentForm s =
    if modeOf s.mct = .setup ∨ s.ssq.heightValid = false then .noForm
    else if modeOf s.mct = .climb then .level
    else if modeOf s.mct = .safe then .reference
    else if s.mct.hold.haltAll = false ∧ s.mct.hold.estop = false ∧ s.mct.hold.key = false ∧ s.mct.hold.sense = false then .creep
    else .hold := by
  cases mode : modeOf s.mct <;> cases valid : s.ssq.heightValid <;> simp [currentForm, formOf, mode, valid, creepPermitted, and_assoc]

theorem currentForm_valid {s : State} (h : currentForm s ≠ .noForm) : s.ssq.heightValid = true := by
  rw [currentForm_eq] at h
  by_contra invalid
  exact h (if_pos (.inr (Bool.eq_false_iff.2 invalid)))

/-! ### The record (R52 to R60) -/

/-- What the record of an expiry is, by the form and the spread check (R50, R52). -/
inductive RecordKind (s : State) (r : CplRecord) : Prop
  | unchecked (form : currentForm s = .noForm) (record : r = recordBase .noForm s)
  | wide (h : Int) (form : currentForm s ≠ .noForm) (href : (currentReference s).href = some h)
      (spread : s.srs.active.spreadAlarm < (h - s.ssq.height).natAbs)
      (record : r = { recordBase (currentForm s) s with spreadExceeded := some true })
  | reference (h : Int) (form : currentForm s = .reference) (href : (currentReference s).href = some h)
      (spread : ((h - s.ssq.height).natAbs : Int) ≤ s.srs.active.spreadAlarm)
      (record : r = { recordBase .reference s with spreadExceeded := some false })
  | full (h : Int) (form : currentForm s = .level ∨ currentForm s = .creep ∨ currentForm s = .hold)
      (href : (currentReference s).href = some h) (spread : ((h - s.ssq.height).natAbs : Int) ≤ s.srs.active.spreadAlarm)
      (record : r = recordFull (currentForm s) s h)

theorem currentRecord_kind (s : State) : RecordKind s (currentRecord s) := by
  by_cases form : currentForm s = .noForm
  · refine .unchecked form ?_
    have none : currentSpread s = none := by rw [currentSpread, form]; rfl
    rw [currentRecord, none, form]
    rfl
  · obtain ⟨h, href⟩ := Option.ne_none_iff_exists'.1 (currentReference_isSome (currentForm_valid form))
    have checks : checksSpread (currentForm s) = true := by cases f : currentForm s <;> simp_all [checksSpread]
    have check : currentSpread s = some (spreadTooWide h s.ssq.height s.srs.active.spreadAlarm) := by
      rw [currentSpread, checks, href]; rfl
    by_cases spread : s.srs.active.spreadAlarm < (h - s.ssq.height).natAbs
    · refine .wide h form href spread ?_
      have tooWide : spreadTooWide h s.ssq.height s.srs.active.spreadAlarm = true := decide_eq_true spread
      rw [currentRecord, check, href, tooWide]
    · have within : spreadTooWide h s.ssq.height s.srs.active.spreadAlarm = false := decide_eq_false spread
      cases f : currentForm s with
      | noForm => exact absurd f form
      | reference =>
        refine .reference h f href (not_lt.1 spread) ?_
        rw [currentRecord, check, href, within, f]
        rfl
      | _ =>
        refine .full h (by simp [f]) href (not_lt.1 spread) ?_
        rw [currentRecord, check, href, within, f]
        rfl

/-- The part that every record has (R60). -/
theorem currentRecord_base (s : State) :
    (currentRecord s).minute = some s.lco.runClock ∧ (currentRecord s).skipped = false ∧
    (currentRecord s).form = currentForm s ∧ (currentRecord s).basis = (currentReference s).basis ∧
    (currentRecord s).href = (currentReference s).href ∧
    (currentRecord s).offset = if s.ssq.heightValid then (currentReference s).href.map (· - s.ssq.height) else none := by
  rcases currentRecord_kind s with ⟨form, record⟩ | ⟨h, form, href, spread, record⟩ | ⟨h, form, href, spread, record⟩ |
    ⟨h, form, href, spread, record⟩
  · rw [record, form]; exact ⟨rfl, rfl, rfl, rfl, rfl, rfl⟩
  · rw [record]; exact ⟨rfl, rfl, rfl, rfl, rfl, rfl⟩
  · rw [record, form]; exact ⟨rfl, rfl, rfl, rfl, rfl, rfl⟩
  · rw [record]; exact ⟨rfl, rfl, rfl, rfl, rfl, rfl⟩

/-! ### The caps and the floor (R55, R56) -/

/-- The ring minimum is the least of the heights (R42). -/
theorem minOf_least {hs : List Int} {low : Int} (member : low ∈ hs) (least : ∀ x ∈ hs, low ≤ x) : minOf hs = some low := by
  have same : minOf hs = hs.min? := by cases hs <;> rfl
  rw [same, List.min?_eq_some_iff]
  exact ⟨member, fun b hb => least b hb⟩

theorem capsOf_floor (s : State) : (capsOf s).sfloor = if sticks s.srs.active.mStick s.lco then s.srs.active.creepStroke else 0 := by
  rw [← stick_eq]
  rfl

theorem capsOf_lead {s : State} {low : Int} (member : low ∈ nodeHeights s) (least : ∀ x ∈ nodeHeights s, low ≤ x) :
    (capsOf s).clead = max 0 (low + s.srs.active.lead - s.ssq.height) := by
  show capLead ((minOf (nodeHeights s)).getD s.ssq.height) s.ssq.height s.srs.active.lead = _
  rw [minOf_least member least]
  rfl

theorem capsOf_fill (s : State) : (capsOf s).cfill =
    max 0 ((s.lco.column.getLast?.map Layer.top).getD s.ssq.height - s.ssq.height - s.srs.active.fillMin) := by
  have top : ctop s.ssq.height s.lco = (s.lco.column.getLast?.map Layer.top).getD s.ssq.height := by
    unfold ctop youngest
    cases s.lco.column.getLast? <;> rfl
  rw [← top]
  rfl

/-- The combined cap is at most every cap. -/
theorem capsOf_least (s : State) : (capsOf s).scap ≤ (capsOf s).cmax ∧ (capsOf s).scap ≤ (capsOf s).cfill ∧
    (∀ x, (capsOf s).crelease = some x → (capsOf s).scap ≤ x) ∧ (capsOf s).scap ≤ (capsOf s).clead := by
  have cap : (capsOf s).scap = combinedCap (capsOf s).cmax (capsOf s).cfill (capsOf s).crelease (capsOf s).clead := rfl
  rw [cap]
  cases (capsOf s).crelease with
  | none => simp only [combinedCap]; exact ⟨by omega, by omega, nofun, by omega⟩
  | some r =>
    simp only [combinedCap, Option.some.injEq]
    exact ⟨by omega, by omega, fun x h => by omega, by omega⟩

/-- The combined cap is one of the caps. -/
theorem capsOf_one (s : State) : (capsOf s).cmax = (capsOf s).scap ∨ (capsOf s).cfill = (capsOf s).scap ∨
    (capsOf s).crelease = some (capsOf s).scap ∨ (capsOf s).clead = (capsOf s).scap := by
  have cap : (capsOf s).scap = combinedCap (capsOf s).cmax (capsOf s).cfill (capsOf s).crelease (capsOf s).clead := rfl
  rw [cap]
  cases (capsOf s).crelease with
  | none => simp only [combinedCap, reduceCtorEq, false_or]; omega
  | some r => simp only [combinedCap, Option.some.injEq]; omega

/-! ### The allowance (R56 to R58) -/

theorem levelAllowance {s : State} (h : Int) : (recordFull .level s h).allowance = some
    (if min (max (levelStroke s.srs.active.nominalPace s.srs.active.gain
        (levelError h s.cpl.trim s.ssq.height s.srs.active.spreadAlarm)) (capsOf s).sfloor) (capsOf s).scap < s.srs.active.smin then 0
    else min (max (levelStroke s.srs.active.nominalPace s.srs.active.gain
        (levelError h s.cpl.trim s.ssq.height s.srs.active.spreadAlarm)) (capsOf s).sfloor) (capsOf s).scap) := rfl

theorem creepAllowance {s : State} (h : Int) : (recordFull .creep s h).allowance = some
    (if sticks s.srs.active.mStick s.lco = true ∧ s.srs.active.smin ≤ min s.srs.active.creepStroke (capsOf s).scap then
      min s.srs.active.creepStroke (capsOf s).scap
    else 0) := by
  show some (deadBand _ (combineCreep (stick s.srs.active.mStick s.lco) s.srs.active.creepStroke (capsOf s).scap)) = _
  rw [stick_eq, combineCreep, deadBand]
  by_cases stuck : sticks s.srs.active.mStick s.lco = true
  · by_cases small : min s.srs.active.creepStroke (capsOf s).scap < s.srs.active.smin
    · rw [if_pos stuck, if_pos small, if_neg (by omega)]
    · rw [if_pos stuck, if_neg small, if_pos ⟨stuck, not_lt.1 small⟩]
  · rw [if_neg stuck, ite_self, if_neg fun h => stuck h.1]

/-- An allowance is 0 or within S_min and the cap (R56, R57). -/
theorem allowance_within {s : State} {S : Int} (h : (currentRecord s).allowance = some S) :
    S = 0 ∨ (s.srs.active.smin ≤ S ∧ ∀ cap, (currentRecord s).scap = some cap → S ≤ cap) := by
  rcases currentRecord_kind s with ⟨form, record⟩ | ⟨x, form, href, spread, record⟩ | ⟨x, form, href, spread, record⟩ |
    ⟨x, form | form | form, href, spread, record⟩
  · rw [record] at h; exact .inl (Option.some.inj h).symm
  · rw [record] at h; exact .inl (Option.some.inj h).symm
  · rw [record] at h; exact .inl (Option.some.inj h).symm
  · rw [form] at record
    rw [record, levelAllowance] at h
    have value := Option.some.inj h
    split at value
    · exact .inl value.symm
    · refine .inr ⟨by omega, fun cap hcap => ?_⟩
      rw [record] at hcap
      have : (capsOf s).scap = cap := Option.some.inj hcap
      omega
  · rw [form] at record
    rw [record, creepAllowance] at h
    have value := Option.some.inj h
    split at value
    · refine .inr ⟨by omega, fun cap hcap => ?_⟩
      rw [record] at hcap
      have : (capsOf s).scap = cap := Option.some.inj hcap
      omega
    · exact .inl value.symm
  · rw [form] at record
    rw [record] at h
    exact .inl (Option.some.inj h).symm

/-! ### What the record shows, by its kind -/

/-- Nothing but the spread check shows in a record that reaches no floor stage (R50, R52, R60). -/
theorem record_bare {s : State} {r : CplRecord} (bare : r.form = .noForm ∨ r.form = .reference ∨ r.spreadExceeded = some true)
    (k : RecordKind s r) : r.cmax = none ∧ r.cfill = none ∧ r.crel = none ∧ r.clead = none ∧ r.scap = none ∧ r.sfloor = none ∧
      r.error = none ∧ r.slvl = none ∧ r.bind = false := by
  rcases k with ⟨form, record⟩ | ⟨x, form, href, spread, record⟩ | ⟨x, form, href, spread, record⟩ |
    ⟨x, form, href, spread, record⟩
  · rw [record]; exact ⟨rfl, rfl, rfl, rfl, rfl, rfl, rfl, rfl, rfl⟩
  · rw [record]; exact ⟨rfl, rfl, rfl, rfl, rfl, rfl, rfl, rfl, rfl⟩
  · rw [record]; exact ⟨rfl, rfl, rfl, rfl, rfl, rfl, rfl, rfl, rfl⟩
  · have shown : r.form = currentForm s := by rw [record]; rfl
    have check : r.spreadExceeded = some false := by rw [record]; rfl
    rw [shown, check] at bare
    rcases form with form | form | form <;> rw [form] at bare <;> simp at bare

/-- A form that reaches the floor stage, with the spread within Ea (R50, R52). -/
theorem currentRecord_full {s : State} {x : Int} (form : currentForm s = .level ∨ currentForm s = .creep ∨ currentForm s = .hold)
    (href : (currentReference s).href = some x) (within : ((x - s.ssq.height).natAbs : Int) ≤ s.srs.active.spreadAlarm) :
    currentRecord s = recordFull (currentForm s) s x := by
  rcases currentRecord_kind s with ⟨other, -⟩ | ⟨y, -, hy, wide, -⟩ | ⟨y, other, -, -, -⟩ | ⟨y, -, hy, -, record⟩
  · rw [other] at form; simp at form
  · have : y = x := Option.some.inj (hy.symm.trans href)
    rw [this] at wide
    omega
  · rw [other] at form; simp at form
  · have : y = x := Option.some.inj (hy.symm.trans href)
    rw [record, this]

/-- The spread check of a form that makes one (R52). -/
theorem currentRecord_checked {s : State} {x : Int} (form : currentForm s ≠ .noForm) (href : (currentReference s).href = some x) :
    (currentRecord s).spreadExceeded = some (decide (s.srs.active.spreadAlarm < (x - s.ssq.height).natAbs)) := by
  have same {y : Int} (hy : (currentReference s).href = some y) : y = x := Option.some.inj (hy.symm.trans href)
  rcases currentRecord_kind s with ⟨other, -⟩ | ⟨y, -, hy, wide, record⟩ | ⟨y, -, hy, within, record⟩ | ⟨y, -, hy, within, record⟩
  · exact absurd other form
  · rw [record, ← same hy, decide_eq_true wide]
  · rw [record, ← same hy, decide_eq_false (not_lt.2 within)]
  · rw [record, ← same hy, decide_eq_false (not_lt.2 within)]
    rfl

/-- A form other than LEVEL shows no level error and no level stroke (R53, R54). -/
theorem currentRecord_error {s : State} (form : currentForm s ≠ .level) :
    (currentRecord s).error = none ∧ (currentRecord s).slvl = none := by
  rcases currentRecord_kind s with ⟨-, record⟩ | ⟨_, -, -, -, record⟩ | ⟨_, -, -, -, record⟩ | ⟨_, -, -, -, record⟩
  · rw [record]; exact ⟨rfl, rfl⟩
  · rw [record]; exact ⟨rfl, rfl⟩
  · rw [record]; exact ⟨rfl, rfl⟩
  · rw [record]; exact ⟨if_neg form, if_neg form⟩

/-- A form other than LEVEL and CREEP, and a spread beyond Ea, allow nothing (R50, R52). -/
theorem currentRecord_idle {s : State} (h : (currentForm s ≠ .level ∧ currentForm s ≠ .creep) ∨
    ∃ x, (currentReference s).href = some x ∧ s.srs.active.spreadAlarm < (x - s.ssq.height).natAbs) :
    (currentRecord s).allowance = some 0 := by
  rcases currentRecord_kind s with ⟨-, record⟩ | ⟨_, -, -, -, record⟩ | ⟨_, -, -, -, record⟩ | ⟨y, form, hy, within, record⟩
  · rw [record]; rfl
  · rw [record]; rfl
  · rw [record]; rfl
  · rcases h with ⟨level, creep⟩ | ⟨x, href, wide⟩
    · rcases form with form | form | form
      · exact absurd form level
      · exact absurd form creep
      · rw [record, form]; rfl
    · have : y = x := Option.some.inj (hy.symm.trans href)
      rw [this] at within
      omega

/-- Settles O53: the record by its kind, and the reference by what the searches find. -/
theorem allowanceRules : Obligations.AllowanceRules := by
  intro s
  obtain ⟨minute, skipped, form, basis, href, offset⟩ := currentRecord_base s
  obtain ⟨two, one, none⟩ := nodeNeighbours_spec s
  have kind := currentRecord_kind s
  refine ⟨minute, skipped, basis, href, capsOf_floor s, form.trans (currentForm_eq s), two, one, none, nodeHeights_spec s,
    fun a b m h hm => ?_, fun a m h hm => ?_, fun h => ⟨fun many => ?_, fun few valid => ?_, fun few invalid => ?_⟩, fun h => ?_,
    fun invalid => ?_, fun valid => ?_, fun h => ?_, fun x h hx => ?_, fun h => ?_, fun h => record_bare h kind, fun x hx wide => ?_,
    fun x hx within level => ?_, fun x hx within creep => ?_, fun level creep => ?_, fun x hx within h => ?_,
    fun S => allowance_within⟩
  · rw [basis, href, currentReference_two h, ← hm]; exact ⟨rfl, rfl⟩
  · rw [basis, href, currentReference_one h, ← hm]; exact ⟨rfl, rfl⟩
  · rw [basis, href, currentReference_none h, if_pos many]; exact ⟨rfl, rfl⟩
  · rw [basis, href, currentReference_none h, if_neg (by omega), if_pos valid]; exact ⟨rfl, rfl⟩
  · rw [basis, href, currentReference_none h, if_neg (by omega), if_neg (by simp [invalid])]; exact ⟨rfl, rfl⟩
  · rw [form] at h
    rw [href]
    exact ⟨currentForm_valid h, currentReference_isSome (currentForm_valid h)⟩
  · rw [offset, if_neg (by simp [invalid])]
  · rw [offset, if_pos valid, href]
  · rw [form] at h
    rcases kind with ⟨-, record⟩ | ⟨_, other, -, -, -⟩ | ⟨_, other, -, -, -⟩ | ⟨_, other, -, -, -⟩
    · rw [record]; rfl
    · exact absurd h other
    · rw [h] at other; cases other
    · rw [h] at other; simp at other
  · exact currentRecord_checked (by rw [← form]; exact h) (by rw [← href]; exact hx)
  · exact currentRecord_error (by rw [← form]; exact h)
  · rw [href] at hx
    have bare : (currentRecord s).form = .noForm ∨ (currentRecord s).form = .reference ∨
        (currentRecord s).spreadExceeded = some true := by
      by_cases unchecked : currentForm s = .noForm
      · exact .inl (form.trans unchecked)
      · rw [currentRecord_checked unchecked hx, decide_eq_true wide]
        exact .inr (.inr rfl)
    obtain ⟨-, -, -, -, scap, -, -, -, bind⟩ := record_bare bare kind
    exact ⟨currentRecord_idle (.inr ⟨x, hx, wide⟩), bind, scap⟩
  · rw [form] at level
    rw [href] at hx
    have record := currentRecord_full (.inl level) hx within
    rw [level] at record
    rw [record]
    exact ⟨_, _, rfl, rfl, rfl, rfl, levelAllowance x⟩
  · rw [form] at creep
    rw [href] at hx
    have record := currentRecord_full (.inr (.inl creep)) hx within
    rw [creep] at record
    rw [record]
    exact ⟨rfl, rfl, creepAllowance x⟩
  · exact currentRecord_idle (.inl ⟨by rw [← form]; exact level, by rw [← form]; exact creep⟩)
  · rw [form] at h
    rw [href] at hx
    obtain ⟨max, fill, rel, lead⟩ := capsOf_least s
    rw [currentRecord_full h hx within]
    refine ⟨?_, congrArg some (capsOf_fill s), rfl, fun low member least => congrArg some (capsOf_lead member least),
      congrArg some (capsOf_floor s), (capsOf s).scap, rfl, rfl, fun c hc => ?_, ?_, fun floor hf => ?_⟩
    · refine congrArg some (?_ : capMax s.srs.active = _)
      unfold capMax
      split <;> simp_all
    · rcases hc with hc | hc | hc | hc
      · exact max.trans_eq (Option.some.inj hc)
      · exact fill.trans_eq (Option.some.inj hc)
      · exact rel c hc
      · exact lead.trans_eq (Option.some.inj hc)
    · exact (capsOf_one s).imp (congrArg some) (Or.imp (congrArg some) (Or.imp id (congrArg some)))
    · have : (capsOf s).sfloor = floor := Option.some.inj hf
      rw [← this]
      exact decide_eq_true_iff

end Sys2Proof.Machine
end

section
/-! The laser (R82, R83), and the cycle expiry (R47, R48, R52, R59, R60, R65). -/

namespace Sys2Proof.Machine

/-! ### The laser -/

/-- A quarter truncated toward 0 lies between 0 and the whole. -/
theorem quarter_between (X : Int) :
    (0 ≤ X → 0 ≤ Int.tdiv X 4 ∧ Int.tdiv X 4 ≤ X) ∧ (X ≤ 0 → X ≤ Int.tdiv X 4 ∧ Int.tdiv X 4 ≤ 0) := by
  refine ⟨fun h => ?_, fun h => ?_⟩
  · rw [Int.tdiv_eq_ediv_of_nonneg h]
    omega
  · have negated : Int.tdiv X 4 = -(-X / 4) := by
      rw [← Int.tdiv_eq_ediv_of_nonneg (by omega), Int.neg_tdiv, neg_neg]
    rw [negated]
    omega

theorem laserAt_range (plane b : Int) (s : State) : 0 ≤ laserAt plane b s ∧ laserAt plane b s ≤ 1000000 := by
  unfold laserAt
  omega

theorem laserHeight_seen {plane b : Int} {s : State} (h : BeamSeen plane b s) : laserHeight s = some (laserAt plane b s) := by
  obtain ⟨hp, present, ⟨good, value⟩, window⟩ := h
  rw [laserHeight, hp, value]
  exact if_pos ⟨present, good, window.1, window.2⟩

theorem laserHeight_unseen {s : State} (h : ∀ plane b, ¬ BeamSeen plane b s) : laserHeight s = none := by
  unfold laserHeight
  split
  · next plane b hp hb =>
    exact if_neg fun ⟨present, good, low, high⟩ => h plane b ⟨hp, present, ⟨good, hb⟩, low, high⟩
  · rfl

theorem laserStep_seen {plane b : Int} {s : State} (h : BeamSeen plane b s) : laserStep s =
    if (laserAt plane b s - s.ssq.height).natAbs ≤ 1000 then some (Int.tdiv (laserAt plane b s - s.ssq.height) 4) else none := by
  rw [laserStep, laserHeight_seen h]
  rfl

/-- The laser correction of a difference up to 1,000 (R81, R82). -/
theorem laserCorrect_near {plane b : Int} {s : State} (h : BeamSeen plane b s) {c : Int}
    (hc : c = Int.tdiv (laserAt plane b s - s.ssq.height) 4) (near : (laserAt plane b s - s.ssq.height).natAbs ≤ 1000)
    (low : 0 ≤ s.ssq.height) (high : s.ssq.height ≤ 1000000) : laserCorrect s =
      (s.setSsq
        { s.ssq with
          height := s.ssq.height + c, heightValid := true, laserDisagree := false
          heightLimit := if s.ssq.height + c < 1000000 then false else s.ssq.heightLimit }).setLco
        (if c = 0 then s.lco else shiftColumn c (s.ssq.height + c) s.lco) := by
  have range := laserAt_range plane b s
  have between := quarter_between (laserAt plane b s - s.ssq.height)
  rw [← hc] at between
  have step : laserStep s = some c := by rw [laserStep_seen h, if_pos near, hc]
  have shift := frameShiftTo_eq (h := s.ssq.height + c) (by omega) (by omega) true s
  have zero : s.ssq.height + c = s.ssq.height ↔ c = 0 := by omega
  have difference : s.ssq.height + c - s.ssq.height = c := by omega
  simp only [zero, difference] at shift
  simp only [laserCorrect, laserHeight_seen h, step, shift]
  rfl

theorem laserCorrect_far {plane b : Int} {s : State} (h : BeamSeen plane b s)
    (far : 1000 < (laserAt plane b s - s.ssq.height).natAbs) : laserCorrect s = s.setSsq { s.ssq with laserDisagree := true } := by
  have step : laserStep s = none := by rw [laserStep_seen h, if_neg (by omega)]
  simp only [laserCorrect, laserHeight_seen h, step]

/-- The laser adoption (R81, R83). -/
theorem laserAdopt_seen {plane b : Int} {s : State} (h : BeamSeen plane b s) : laserAdopt s =
    (s.setSsq
      { s.ssq with
        height := laserAt plane b s, heightValid := true
        heightLimit := if laserAt plane b s < 1000000 then false else s.ssq.heightLimit }).setLco
      (if laserAt plane b s = s.ssq.height then s.lco
       else shiftColumn (laserAt plane b s - s.ssq.height) (laserAt plane b s) s.lco) := by
  simp only [laserAdopt, laserHeight_seen h]
  exact frameShiftTo_eq (laserAt_range plane b s).1 (laserAt_range plane b s).2 true s

theorem laser_unseen {s : State} (h : ∀ plane b, ¬ BeamSeen plane b s) : laserCorrect s = s ∧ laserAdopt s = s := by
  simp only [laserCorrect, laserAdopt, laserHeight_unseen h, and_self]

/-- The four conditions of R82 are of these parts of the state alone. -/
theorem BeamSeen.congr {plane b : Int} {s t : State} (ssq : t.ssq = s.ssq) (pins : t.pins = s.pins) (msq : t.msq = s.msq) :
    BeamSeen plane b t ↔ BeamSeen plane b s := by
  constructor
  · rintro ⟨hp, present, good, window⟩
    exact ⟨ssq ▸ hp, pins ▸ present, msq ▸ good, window⟩
  · rintro ⟨hp, present, good, window⟩
    exact ⟨ssq ▸ hp, pins ▸ present, msq ▸ good, window⟩

/-! ### What the modes leave of the column -/

theorem wantedOrDry_column {s t : State} (h : wantedOrDry s t) : t.lco = s.lco := by
  obtain ⟨dry, claim, want⟩ := h
  by_cases hw : wants s
  · rcases lt_or_ge (notClosedGates s : Int) s.srs.active.gateLimit with place | full
    · rw [claim hw place]; rfl
    · rw [want hw full]; rfl
  · rw [dry hw]; rfl

/-- The pour block changes the column in POURING alone (R100, R109). -/
theorem blockTested_column {s t : State} (h : blockTested s t) (hp : s.fct.pour ≠ .pouring) : t.lco = s.lco := by
  obtain ⟨stays, calm, begins, ends⟩ := h
  by_cases hb : blockedNow s <;> cases hf : s.fct.blocked
  · obtain ⟨idle, wanting, claiming, -⟩ := begins hb hf
    cases pour : s.fct.pour with
    | dry => rw [idle (.inl pour)]; rfl
    | ending => rw [idle (.inr pour)]; rfl
    | want => rw [wanting (.inl pour)]; rfl
    | backoff => rw [wanting (.inr pour)]; rfl
    | claiming => rw [claiming pour]; rfl
    | pouring => exact absurd pour hp
  · rw [stays hb hf]
  · rw [calm hb hf]
  · obtain ⟨dry, other⟩ := ends hb hf
    by_cases pour : s.fct.pour = .dry
    · exact (wantedOrDry_column (dry pour)).trans rfl
    · rw [other pour]; rfl

theorem modeFollowed_column {m : Mct} {s t : State} (h : modeFollowed m s t) (hp : s.fct.pour ≠ .pouring) : t.lco = s.lco := by
  obtain ⟨u, b, tested, -, hu⟩ := h
  have parts : u.fct = s.fct ∧ u.lco = s.lco := by rw [hu]; exact ⟨rfl, rfl⟩
  exact (blockTested_column tested (by rw [parts.1]; exact hp)).trans parts.2

theorem causeAdded_column {why : HaltReason} {f : SafeSet} {s t : State} (h : causeAdded (some why) f s t)
    (hp : s.fct.pour ≠ .pouring) : t.lco = s.lco := by
  obtain ⟨joins, first⟩ := h
  by_cases hs : s.mct.safe = noSafe
  · obtain ⟨u, followed, queued, posted⟩ := first hs
    have column : u.lco = s.lco := (modeFollowed_column followed hp).trans rfl
    by_cases quiet : ownStation u = 0 ∨ u.mct.safe.identityClash = true ∨ u.mct.queuedHalt.map HaltPost.kind = some .all
    · rw [queued (quiet.imp id (Or.imp id fun h => ⟨rfl, h⟩))]
      exact column
    · rw [posted (fun h => quiet (.inl h)) (Bool.eq_false_iff.2 fun h => quiet (.inr (.inl h)))
        (.inr fun h => quiet (.inr (.inr h)))]
      exact column
  · rw [joins hs]; rfl

theorem safeLeft_column {f : SafeSet} {s t : State} (h : safeLeft f s t) (hp : s.fct.pour ≠ .pouring) : t.lco = s.lco := by
  by_cases hf : f = s.mct.safe
  · rw [h.1 hf]
  · exact (modeFollowed_column (h.2 hf) hp).trans rfl

/-! ### The expiry -/

theorem exec_cycleExpiry {s : State} (runs : blocksRun s = true) (timed : s.cpl.cycleMs ≠ none) : exec .cycleExpiry s =
    .next (if s.ssq.phase = .idle then computeExpiry (currentRecord s) (s.setCpl { s.cpl with cycleMs := some 0 })
      else s.setCpl { s.cpl with
        cycleMs := some 0, record := { s.cpl.record with skipped := true, minute := some s.lco.runClock } }) := by
  show execCycleExpiry s = _
  rw [execCycleExpiry, if_pos ⟨runs, Option.isSome_iff_ne_none.2 timed⟩]
  rfl

/-- SPREAD as the spread check of an expiry leaves it, SSQ being idle (R52, R137, R141, R142). -/
structure SpreadApplied (x : Option Bool) (s u : State) : Prop where
  stroke : u.ssq = s.ssq ∧ u.msq = s.msq
  elsewhere : SameElsewhere s u
  fifo : u.lif.fifo = s.lif.fifo
  column : s.fct.pour ≠ .pouring → u.lco = s.lco
  unchecked : x = none → u = s
  wide : x = some true → causeAdded (some .spread) { s.mct.safe with spread := true } s u ∧ u.mct.safe.spread = true
  within : x = some false → safeLeft { s.mct.safe with spread := false } s u ∧ u.mct.safe.spread = false

theorem applySpread_applied (x : Option Bool) {s : State} (idle : s.ssq.phase = .idle) : SpreadApplied x s (applySpread x s) := by
  cases x with
  | none => exact ⟨⟨rfl, rfl⟩, ⟨rfl, rfl, rfl, rfl, rfl, rfl, rfl, rfl⟩, rfl, fun _ => rfl, fun _ => rfl, nofun, nofun⟩
  | some wide =>
    cases wide with
    | true =>
      have spec := addSafe_spec .spread s
      refine ⟨addSafe_calm .spread (by simp [idle]) (by simp [idle]), ⟨?_, ?_, ?_, ?_, ?_, ?_, ?_, ?_⟩, ?_, causeAdded_column spec,
        nofun, fun _ => ⟨spec, ?_⟩, nofun⟩
      case refine_10 => show (addSafe .spread s).mct.safe.spread = true; rw [(addSafe_mct .spread s).1]; rfl
      all_goals simp [applySpread]
    | false =>
      have spec : safeLeft { s.mct.safe with spread := false } s (removeSafe .spread s) := reduceSafe_spec _ s
      refine ⟨?_, ⟨?_, ?_, ?_, ?_, ?_, ?_, ?_, ?_⟩, ?_, safeLeft_column spec, nofun, nofun, fun _ => ⟨spec, ?_⟩⟩
      case refine_11 => show (reduceSafe _ s).mct.safe.spread = false; rw [reduceSafe_safe]; rfl
      all_goals simp [applySpread]

/-- An allowance handed to SSQ, or the null cycle (R65, R83). -/
theorem handAllowance_eq (r : CplRecord) (s : State) : handAllowance r s =
    if 0 < r.allowance.getD 0 then startStroke (if r.form = .creep then .creep else .level) r.allowance s
    else if s.ssq.heightValid then laserCorrect s else laserAdopt s := by
  have kind : strokeKindOf r.form = if r.form = .creep then .creep else .level := by cases r.form <;> rfl
  rw [handAllowance, kind]
  rfl

/-- The stroke or the null cycle leaves the modes, the feed, the line and SRS. -/
theorem handAllowance_kept (r : CplRecord) (s : State) : (handAllowance r s).mct = s.mct ∧ (handAllowance r s).fct = s.fct ∧
    (handAllowance r s).lif = s.lif ∧ (handAllowance r s).srs = s.srs ∧ (handAllowance r s).ors = s.ors := by
  unfold handAllowance
  split
  · rw [startStroke_spec (strokeKindOf r.form) r.allowance s]
    exact ⟨rfl, rfl, rfl, rfl, rfl⟩
  · simp

/-- A null cycle (R82, R83): what the laser makes of own height and the column. -/
theorem nullCycle_laser {s t : State} (ht : t = if s.ssq.heightValid then laserCorrect s else laserAdopt s) :
    ((∀ plane b, ¬ BeamSeen plane b s) → t = s) ∧
    ∀ plane b X, BeamSeen plane b s → X = laserAt plane b s - s.ssq.height →
      (s.ssq.heightValid = true → X.natAbs ≤ 1000 → 0 ≤ s.ssq.height → s.ssq.height ≤ 1000000 →
        t.ssq = { s.ssq with
                  height := s.ssq.height + Int.tdiv X 4, laserDisagree := false
                  heightLimit := if s.ssq.height + Int.tdiv X 4 < 1000000 then false else s.ssq.heightLimit } ∧
          t.lco = if Int.tdiv X 4 = 0 then s.lco else shiftColumn (Int.tdiv X 4) (s.ssq.height + Int.tdiv X 4) s.lco) ∧
      (s.ssq.heightValid = true → 1000 < X.natAbs → t.ssq = { s.ssq with laserDisagree := true } ∧ t.lco = s.lco) ∧
      (s.ssq.heightValid = false →
        t.ssq = { s.ssq with
                  height := laserAt plane b s, heightValid := true
                  heightLimit := if laserAt plane b s < 1000000 then false else s.ssq.heightLimit } ∧
          t.lco = if X = 0 then s.lco else shiftColumn X (laserAt plane b s) s.lco) := by
  refine ⟨fun unseen => ?_, fun plane b X seen hX => ⟨fun valid near low high => ?_, fun valid far => ?_, fun invalid => ?_⟩⟩
  · rw [ht, (laser_unseen unseen).1, (laser_unseen unseen).2, ite_self]
  · rw [ht, if_pos valid, laserCorrect_near seen rfl (hX ▸ near) low high, ← hX, ← valid]
    exact ⟨rfl, rfl⟩
  · rw [ht, if_pos valid, laserCorrect_far seen (hX ▸ far)]
    exact ⟨rfl, rfl⟩
  · have same : laserAt plane b s = s.ssq.height ↔ X = 0 := by omega
    rw [ht, if_neg (by simp [invalid]), laserAdopt_seen seen, ← hX]
    simp only [same]
    exact ⟨rfl, rfl⟩

/-- The bind mark raises the need of a pour alone (R108). -/
theorem raiseBindNeed_need {s : State} (bind : s.cpl.record.bind = true) (pours : s.fct.pour = .pouring)
    (need : s.fct.needAtOpen.getD 0 < 15000) : (raiseBindNeed s).fct = { s.fct with needAtOpen := some 15000 } := by
  rw [(raiseBindNeed_spec s).1 bind pours need]
  rfl

/-- Bind shows only with the spread within Ea (R59). -/
theorem bind_within {s : State} (h : (currentRecord s).bind = true) : (currentRecord s).spreadExceeded ≠ some true := fun wide =>
  absurd ((record_bare (.inr (.inr wide)) (currentRecord_kind s)).2.2.2.2.2.2.2.2.symm.trans h) nofun

theorem raiseBindNeed_fifo (s : State) : (raiseBindNeed s).lif.fifo = s.lif.fifo := by
  unfold raiseBindNeed
  split <;> simp

theorem safeSet_spread {f : SafeSet} (h : f.spread = false) : { f with spread := false } = f := by
  rw [← h]

/-- The parts of an expiry that is not skipped, in their order (R50, R52, R59, R60). -/
structure Expiry (s u v t : State) : Prop where
  spread : SpreadApplied (currentRecord s).spreadExceeded (s.setCpl { s.cpl with cycleMs := some 0 }) u
  need : v = raiseBindNeed (u.setCpl { s.cpl with cycleMs := some 0, record := currentRecord s })
  hand : t = handAllowance (currentRecord s) v

theorem computeExpiry_parts {s : State} (idle : s.ssq.phase = .idle) : ∃ u v,
    Expiry s u v (computeExpiry (currentRecord s) (s.setCpl { s.cpl with cycleMs := some 0 })) := by
  have applied := applySpread_applied (currentRecord s).spreadExceeded (s := s.setCpl { s.cpl with cycleMs := some 0 }) idle
  refine ⟨_, _, applied, rfl, ?_⟩
  unfold computeExpiry
  simp only [applied.elsewhere.cpl]
  rfl

/-- Settles O52: SPREAD, the need of a pour and the stroke or the null cycle, in that order. -/
theorem cycleExpiry : Obligations.CycleExpiry := by
  refine fun s runs timed => ⟨fun busy => ?_, fun idle => ?_⟩
  · rw [exec_cycleExpiry runs timed, if_neg busy]
  · rw [exec_cycleExpiry runs timed, if_pos idle]
    obtain ⟨u, v, applied, hv, ht⟩ := computeExpiry_parts idle
    refine ⟨_, rfl, ?_⟩
    generalize computeExpiry (currentRecord s) (s.setCpl { s.cpl with cycleMs := some 0 }) = t at ht ⊢
    obtain ⟨mct, fct, lif, srs, -⟩ := handAllowance_kept (currentRecord s) v
    rw [← ht] at mct fct lif srs
    obtain ⟨stroke, elsewhere, fifo, column, unchecked, wide, within⟩ := applied
    have vMct : v.mct = u.mct := by rw [hv]; simp
    have vSsq : v.ssq = s.ssq := by rw [hv]; simp [stroke]
    have vMsq : v.msq = s.msq := by rw [hv]; simp [stroke]
    have vLco : v.lco = u.lco := by rw [hv]; simp
    have vCpl : v.cpl = { s.cpl with cycleMs := some 0, record := currentRecord s } := by rw [hv]; simp
    have vElse : v.pvw = s.pvw ∧ v.srs = s.srs ∧ v.ldr = s.ldr ∧ v.pins = s.pins ∧ v.lif.fifo = s.lif.fifo ∧ v.nowMs = s.nowMs ∧
        v.freeCount = s.freeCount ∧ v.pending = s.pending := by
      rw [hv]
      simp [elsewhere.pvw, elsewhere.srs, elsewhere.ldr, elsewhere.pins, raiseBindNeed_fifo, fifo, elsewhere.nowMs,
        elsewhere.freeCount, elsewhere.pending]
    obtain ⟨pvw, vSrs, ldr, pins, vFifo, now, free, pending⟩ := vElse
    have tMct : t.mct = u.mct := mct.trans vMct
    have calm : (currentRecord s).spreadExceeded = some false → s.mct.safe.spread = false →
        u = s.setCpl { s.cpl with cycleMs := some 0 } := fun checked off => (within checked).1.1 (safeSet_spread off)
    have handed {S : Int} (hS : (currentRecord s).allowance = some S) : t =
        if 0 < S then startStroke (if (currentRecord s).form = .creep then .creep else .level) (some S) v
        else if v.ssq.heightValid then laserCorrect v else laserAdopt v := by
      rw [ht, handAllowance_eq, hS]
      rfl
    refine ⟨?_, fun none => ?_, fun checked => ⟨?_, ?_⟩, fun checked => ?_, fun checked off => ?_,
      ⟨u, v, unchecked, fun h => (wide h).1, fun h => (within h).1, ?_, fun S hS => ⟨fun some => ?_, fun none => ?_⟩⟩,
      fun S hS some => ?_, fun null => ?_, fun bind off pours need => ?_, ?_⟩
    · rw [ht]; simp [vCpl]
    · rw [tMct, unchecked none]; rfl
    · rw [tMct]; exact (wide checked).2
    · rw [modeOf_safe_iff, tMct]
      exact fun none => by rw [none] at wide; exact nomatch (wide checked).2
    · rw [tMct]; exact (within checked).2
    · rw [tMct, calm checked off]; rfl
    · rw [hv]; exact raiseBindNeed_spec _
    · rw [handed hS, if_pos some]; exact startStroke_spec _ _ _
    · rw [handed hS, if_neg (not_lt.2 none), vSsq]
    · have started := handed hS
      rw [if_pos some] at started
      rw [started, startStroke_spec _ _ v, ← vSsq, ← vMsq]
      exact ⟨rfl, rfl⟩
    · have laser := handed null
      rw [if_neg (lt_irrefl 0)] at laser
      obtain ⟨unseen, seen⟩ := nullCycle_laser laser
      have sees (plane b : Int) : BeamSeen plane b v ↔ BeamSeen plane b s := BeamSeen.congr vSsq pins vMsq
      have at_ (plane b : Int) : laserAt plane b v = laserAt plane b s := by unfold laserAt; rw [vSrs]
      have kept (hp : s.fct.pour ≠ .pouring) : v.lco = s.lco := vLco.trans (column hp)
      have tMsq : t.msq = v.msq := by rw [laser]; split <;> simp
      simp only [sees, at_, vSsq] at unseen seen
      refine ⟨tMsq.trans vMsq, ⟨v, ?_, vSsq, vMsq, pins, vSrs, kept, fun same quiet => ?_⟩, fun h => ?_, fun plane b X h hX => ?_⟩
      · rw [← vSsq]; exact laser
      · have hu : u = s.setCpl { s.cpl with cycleMs := some 0 } := same.elim unchecked fun h => calm h.1 h.2
        rw [hv, hu]
        refine (raiseBindNeed_spec _).2 fun h => ?_
        rcases quiet with quiet | quiet
        · exact nomatch quiet.symm.trans h.1
        · exact quiet h.2.1
      · rw [unseen h]; exact ⟨vSsq, kept⟩
      · obtain ⟨near, far, adopt⟩ := seen plane b X h hX
        refine ⟨fun valid small low high => ?_, fun valid large => ?_, fun invalid => ?_⟩
        · obtain ⟨ssq, lco⟩ := near valid small low high
          exact ⟨ssq, fun hp => by rw [lco, kept hp]⟩
        · obtain ⟨ssq, lco⟩ := far valid large
          exact ⟨ssq, fun hp => lco.trans (kept hp)⟩
        · obtain ⟨ssq, lco⟩ := adopt invalid
          exact ⟨ssq, fun hp => by rw [lco, kept hp]⟩
    · have hu : u = s.setCpl { s.cpl with cycleMs := some 0 } := by
        cases checked : (currentRecord s).spreadExceeded with
        | none => exact unchecked checked
        | some wide =>
          cases wide with
          | true => exact absurd checked (bind_within bind)
          | false => exact calm checked off
      rw [fct, hv, hu]
      exact raiseBindNeed_need bind pours need
    · have same := handAllowance_frame (currentRecord s) v
      rw [← ht] at same
      obtain ⟨tPvw, -, tLdr, tPins, tNow, tFree, tPending⟩ := same
      exact ⟨tPvw.trans pvw, srs.trans vSrs, tLdr.trans ldr, tPins.trans pins, by rw [lif]; exact vFifo, tNow.trans now,
        tFree.trans free, tPending.trans pending⟩

end Sys2Proof.Machine
end

section
/-! The completion of a stroke (R74 to R77, R80 to R82, R86, R88, R197). -/

namespace Sys2Proof.Machine

/-! ### The report of a stroke's outcome (R74, R77) -/

/-- A cut keeps own height, its marks, and what past strokes left (R78). -/
theorem cutLeaves_kept (s : State) : (cutLeaves s).height = s.ssq.height ∧ (cutLeaves s).heightValid = s.ssq.heightValid ∧
    (cutLeaves s).heightLimit = s.ssq.heightLimit ∧ (cutLeaves s).laserDisagree = s.ssq.laserDisagree ∧
    (cutLeaves s).strokeCount = s.ssq.strokeCount ∧ (cutLeaves s).history = s.ssq.history := by
  unfold cutLeaves
  (repeat' split) <;> exact ⟨rfl, rfl, rfl, rfl, rfl, rfl⟩

/-- A SAFE cause with a reason of its own changes SSQ by its cut alone (R78, R141). -/
theorem addSafe_ssq {c : SafeCause} {why : HaltReason} (reason : haltReasonOf c = some why) (s : State) :
    (addSafe c s).ssq = s.ssq ∨ (addSafe c s).ssq = cutLeaves s := by
  by_cases calm : s.mct.safe = noSafe
  · refine .inr ?_
    rw [addSafe_first reason calm]
    simp [safeCut]
  · rw [(addSafe_spec c s).1 calm]
    exact .inl rfl

/-- The window with this stroke's report (R77). -/
def windowJoined (n : Nat) (s : State) : State := s.setMct { s.mct with window := (n :: s.mct.window).take 10 }

theorem reportOutcome_calibration {st : Stroke} (h : st.kind = .calibration) (s : State) :
    reportOutcome st s = s.setSrs (calibrationOutcome st s.srs) := if_pos h

theorem reportOutcome_stroke {st : Stroke} (h : st.kind ≠ .calibration) (s : State) : reportOutcome st s =
    if 2 ≤ ((st.faults.length :: s.mct.window).take 10).sum then addSafe .strokeRepeat (windowJoined st.faults.length s)
    else windowJoined st.faults.length s := if_neg h

/-- The report keeps own height, its marks, and what past strokes left. -/
theorem reportOutcome_ssq (st : Stroke) (s : State) : (reportOutcome st s).ssq.height = s.ssq.height ∧
    (reportOutcome st s).ssq.heightValid = s.ssq.heightValid ∧ (reportOutcome st s).ssq.heightLimit = s.ssq.heightLimit ∧
    (reportOutcome st s).ssq.laserDisagree = s.ssq.laserDisagree ∧ (reportOutcome st s).ssq.strokeCount = s.ssq.strokeCount ∧
    (reportOutcome st s).ssq.history = s.ssq.history := by
  by_cases kind : st.kind = .calibration
  · rw [reportOutcome_calibration kind]; exact ⟨rfl, rfl, rfl, rfl, rfl, rfl⟩
  · rw [reportOutcome_stroke kind]
    split
    · rcases addSafe_ssq (c := .strokeRepeat) rfl (windowJoined st.faults.length s) with same | cut
      · rw [same]; exact ⟨rfl, rfl, rfl, rfl, rfl, rfl⟩
      · rw [cut]; exact cutLeaves_kept (windowJoined st.faults.length s)
    · exact ⟨rfl, rfl, rfl, rfl, rfl, rfl⟩

/-- The window after the report (R77). -/
theorem reportOutcome_window (st : Stroke) (s : State) : (reportOutcome st s).mct.window =
    if st.kind = .calibration then s.mct.window else (st.faults.length :: s.mct.window).take 10 := by
  by_cases kind : st.kind = .calibration
  · rw [reportOutcome_calibration kind, if_pos kind]; rfl
  · rw [reportOutcome_stroke kind, if_neg kind]
    split
    · exact (addSafe_mct .strokeRepeat _).2.2.2.1
    · rfl

/-- SRS at a successful calibration, the write it asks for included (R195, R197). -/
theorem calibrationSuccess_eq (m : Int) (r : Srs) {w : BlockWrite} (hw : w = { block := { r.active with
      fullStroke := some m, calibrateNext := 0, smax := min r.active.smax (m - 10) }, forStore := false }) :
    calibrationSuccess m r = { r with
      active := { r.active with fullStroke := some m }
      staged := { r.staged with fullStroke := some m, calibrateNext := 0, smax := min r.staged.smax (m - 10) }
      calibrationPending := false
      write := if r.loadResult = .good ∧ r.write = none then some w else r.write
      stored := if r.loadResult = .good ∧ r.write = none then none else r.stored
      writesWaiting := if r.loadResult = .good ∧ r.write ≠ none then r.writesWaiting ++ [w] else r.writesWaiting } := by
  subst hw
  by_cases good : r.loadResult = .good
  · by_cases idle : r.write = none
    · simp [calibrationSuccess, calibratedBlock, askWrite_eq, good, idle]
    · simp [calibrationSuccess, calibratedBlock, askWrite_eq, good, idle]
  · simp [calibrationSuccess, calibratedBlock, good]

/-- The outcome of a calibration stroke ends the start sequence's wait for it (R196, R197). -/
theorem calibrationOutcome_eq (st : Stroke) (r : Srs) : calibrationOutcome st r =
    { (match calibratedStroke st with | some m => calibrationSuccess m r | none => r) with
      step := if r.step = .calibrating then .joinListen else r.step
      joinMs := if r.step = .calibrating then 0 else r.joinMs } := by
  have steps (m : Int) : (calibrationSuccess m r).step = r.step ∧ (calibrationSuccess m r).joinMs = r.joinMs := by
    rw [calibrationSuccess_eq m r rfl]
    exact ⟨rfl, rfl⟩
  unfold calibrationOutcome
  cases calibratedStroke st with
  | none => by_cases h : r.step = .calibrating <;> simp [h]
  | some m =>
    obtain ⟨step, joinMs⟩ := steps m
    by_cases h : r.step = .calibrating
    · simp [h, step]
    · simp only [step, h, if_false]
      rw [← step, ← joinMs]

/-! ### The laser correction of a completion (R74, R82) -/

theorem settleLaser_invalid {st : Stroke} {s : State} (h : s.ssq.heightValid = false) : settleLaser st s = (st, s) :=
  if_neg (by simp [h])

theorem settleLaser_valid {st : Stroke} {s : State} (h : s.ssq.heightValid = true) :
    settleLaser st s = ({ st with laser := laserStep s }, laserCorrect s) := if_pos h

/-- What the laser makes of a completion (R74, R82; log entry 15). -/
inductive LaserSettled (st : Stroke) (s : State) : Stroke × State → Prop
  | idle (unread : s.ssq.heightValid = false ∨ ∀ plane b, ¬ BeamSeen plane b s) : LaserSettled st s ({ st with laser := none }, s)
  | near (plane b : Int) (valid : s.ssq.heightValid = true) (seen : BeamSeen plane b s)
      (small : (laserAt plane b s - s.ssq.height).natAbs ≤ 1000) :
      LaserSettled st s ({ st with laser := some (Int.tdiv (laserAt plane b s - s.ssq.height) 4) }, laserCorrect s)
  | far (plane b : Int) (valid : s.ssq.heightValid = true) (seen : BeamSeen plane b s)
      (large : 1000 < (laserAt plane b s - s.ssq.height).natAbs) :
      LaserSettled st s ({ st with laser := none }, s.setSsq { s.ssq with laserDisagree := true })

theorem settleLaser_settled {st : Stroke} (hl : st.laser = none) (s : State) : LaserSettled st s (settleLaser st s) := by
  cases valid : s.ssq.heightValid with
  | false =>
    have same : { st with laser := none } = st := by rw [← hl]
    have k := LaserSettled.idle (st := st) (s := s) (.inl valid)
    rwa [same, ← settleLaser_invalid (st := st) valid] at k
  | true =>
    rw [settleLaser_valid valid]
    by_cases unseen : ∀ plane b, ¬ BeamSeen plane b s
    · have step : laserStep s = none := by rw [laserStep, laserHeight_unseen unseen]; rfl
      rw [step, (laser_unseen unseen).1]
      exact .idle (.inr unseen)
    · push Not at unseen
      obtain ⟨plane, b, seen⟩ := unseen
      rw [laserStep_seen seen]
      by_cases small : (laserAt plane b s - s.ssq.height).natAbs ≤ 1000
      · rw [if_pos small]
        exact .near plane b valid seen small
      · rw [if_neg small, laserCorrect_far seen (not_le.1 small)]
        exact .far plane b valid seen (not_le.1 small)

/-- The beam and the plane are one (R82). -/
theorem BeamSeen.unique {plane b plane' b' : Int} {s : State} (h : BeamSeen plane b s) (k : BeamSeen plane' b' s) :
    plane = plane' ∧ b = b' :=
  ⟨Option.some.inj (h.plane.symm.trans k.plane), Option.some.inj (h.good.2.symm.trans k.good.2)⟩

/-- A correction, whatever own height, clears the mark (R82). -/
theorem laserCorrect_agrees {plane b : Int} {s : State} (h : BeamSeen plane b s)
    (near : (laserAt plane b s - s.ssq.height).natAbs ≤ 1000) : (laserCorrect s).ssq.laserDisagree = false := by
  have step : laserStep s = some (Int.tdiv (laserAt plane b s - s.ssq.height) 4) := by rw [laserStep_seen h, if_pos near]
  simp only [laserCorrect, laserHeight_seen h, step]
  rfl

/-- Own height `h` climbed to and its laser correction `c`, as the completion records them (R74, R75, R80, R82). -/
structure HeightSettled (s : State) (d h : Int) (c : Option Int) (q : State) : Prop where
  unread : s.ssq.heightValid = false ∨ (∀ plane b, ¬ BeamSeen plane b s) → c = none ∧ q.ssq.laserDisagree = s.ssq.laserDisagree
  read : ∀ plane b, s.ssq.heightValid = true → BeamSeen plane b s →
    ((laserAt plane b s - h).natAbs ≤ 1000 → c = some (Int.tdiv (laserAt plane b s - h) 4) ∧ q.ssq.laserDisagree = false) ∧
      (1000 < (laserAt plane b s - h).natAbs → c = none ∧ q.ssq.laserDisagree = true)
  alone : c = none → q.ssq.height = h ∧ (1000000 < s.ssq.height + d → q.ssq.heightLimit = true) ∧ q.lco = releasePass h s.lco
  shifted : ∀ x, c = some x → 0 ≤ s.ssq.height → q.ssq.height = h + x ∧ (h + x < 1000000 → q.ssq.heightLimit = false) ∧
    q.lco = if x = 0 then releasePass h s.lco else shiftColumn x (h + x) (releasePass h s.lco)
  shape : q = (s.setSsq { s.ssq with
    height := q.ssq.height, heightLimit := q.ssq.heightLimit, laserDisagree := q.ssq.laserDisagree }).setLco q.lco

theorem heightSettled {st : Stroke} (hl : st.laser = none) (s : State) {d h : Int} (hd : 0 ≤ d) (hh : h = min 1000000 (s.ssq.height + d)) :
    HeightSettled s d h (settleLaser st (climbBy d s)).1.laser (settleLaser st (climbBy d s)).2 := by
  have climbed : (climbBy d s).ssq.height = h ∧ (climbBy d s).lco = releasePass h s.lco := by subst hh; exact ⟨rfl, rfl⟩
  obtain ⟨height, lco⟩ := climbed
  have sees (plane b : Int) : BeamSeen plane b (climbBy d s) ↔ BeamSeen plane b s :=
    ⟨fun ⟨p, q, r, w⟩ => ⟨p, q, r, w⟩, fun ⟨p, q, r, w⟩ => ⟨p, q, r, w⟩⟩
  have limit : 1000000 < s.ssq.height + d → (climbBy d s).ssq.heightLimit = true := fun above => if_pos above
  have shape := settleLaser_eq st (climbBy d s)
  have kept : (climbBy d s).ssq.heightValid = s.ssq.heightValid ∧ (climbBy d s).ssq.laserDisagree = s.ssq.laserDisagree := ⟨rfl, rfl⟩
  have settled := settleLaser_settled hl (climbBy d s)
  have shaped : (settleLaser st (climbBy d s)).2 = (s.setSsq { s.ssq with
      height := (settleLaser st (climbBy d s)).2.ssq.height
      heightLimit := (settleLaser st (climbBy d s)).2.ssq.heightLimit
      laserDisagree := (settleLaser st (climbBy d s)).2.ssq.laserDisagree }).setLco (settleLaser st (climbBy d s)).2.lco := shape
  have high : h ≤ 1000000 := by omega
  generalize hq : settleLaser st (climbBy d s) = q at shaped settled ⊢
  have at_ (plane b : Int) : laserAt plane b (climbBy d s) = laserAt plane b s := rfl
  cases settled with
  | idle unread =>
    rw [kept.1] at unread
    simp only [sees] at unread
    exact ⟨fun _ => ⟨rfl, rfl⟩, fun plane b valid seen =>
      unread.elim (fun h => nomatch h.symm.trans valid) fun h => absurd seen (h plane b),
      fun _ => ⟨height, limit, lco⟩, nofun, shaped⟩
  | near plane b valid seen small =>
    have agrees := laserCorrect_agrees seen small
    rw [kept.1] at valid
    rw [height] at small ⊢
    refine ⟨fun unread => unread.elim (fun h => nomatch h.symm.trans valid) fun h => absurd ((sees plane b).1 seen) (h plane b),
      fun plane' b' _ seen' => ?_, nofun, fun x hx low => ?_, shaped⟩
    · obtain ⟨rfl, rfl⟩ := ((sees plane b).1 seen).unique seen'
      exact ⟨fun _ => ⟨rfl, agrees⟩, fun large => absurd large (not_lt.2 small)⟩
    · obtain rfl := Option.some.inj hx
      have near := laserCorrect_near seen rfl (height ▸ small) (by omega) (by omega)
      rw [height, lco] at near
      show (laserCorrect (climbBy d s)).ssq.height = _ ∧ (_ → (laserCorrect (climbBy d s)).ssq.heightLimit = _) ∧
        (laserCorrect (climbBy d s)).lco = _
      rw [near]
      exact ⟨rfl, fun below => if_pos below, rfl⟩
  | far plane b valid seen large =>
    rw [kept.1] at valid
    rw [height] at large
    refine ⟨fun unread => unread.elim (fun h => nomatch h.symm.trans valid) fun h => absurd ((sees plane b).1 seen) (h plane b),
      fun plane' b' _ seen' => ?_, fun _ => ⟨height, limit, lco⟩, nofun, shaped⟩
    obtain ⟨rfl, rfl⟩ := ((sees plane b).1 seen).unique seen'
    exact ⟨fun small => absurd large (not_lt.2 small), fun _ => ⟨rfl, rfl⟩⟩

/-! ### The completion of SETTLE (R74 to R77, R86) -/

theorem settleLaser_laser (st : Stroke) (s : State) : (settleLaser st s).1 = { st with laser := (settleLaser st s).1.laser } := by
  unfold settleLaser
  split <;> rfl

/-- A completion after its report `y`: the history record, the wanted LEVEL post, and IDLE (R74, steps 6 to 8). -/
def strokeClosed (s : State) (record : HistoryRec) (y : State) : State :=
  ((y.setSsq { y.ssq with history := (record :: s.ssq.history).take 8, stroke := none, phase := .idle }).setLif
    (wantLevelPost (ownStation y) y.lif)).setMct { y.mct with settling := false }

/-- The state a completion reports from: own height climbed and corrected, and the stroke counted (R74). -/
def strokeCounted (st : Stroke) (s : State) : State :=
  let q := (settleLaser st (climbBy (climbedDistance s.srs.active.takeUp st) s)).2
  q.setSsq { q.ssq with strokeCount := (s.ssq.strokeCount + 1) % 256 }

theorem completeSettle_eq {st : Stroke} {s : State} {c : Option Int}
    (hc : c = (settleLaser st (climbBy (climbedDistance s.srs.active.takeUp st) s)).1.laser) : completeSettle st s = strokeClosed s
      { number := (s.ssq.strokeCount + 1) % 256, allowance := st.allowance, climbed := climbedDistance s.srs.active.takeUp st,
        liftMs := st.liftDuration.getD 0, releaseMs := st.releaseDuration.getD 0, cause := endCauseOf st,
        creep := decide (st.kind = .creep), substituted := anySubstituted st, laser := c }
      (reportOutcome { st with laser := c } (strokeCounted st s)) := by
  subst hc
  have count : (settleLaser st (climbBy (climbedDistance s.srs.active.takeUp st) s)).2.ssq.strokeCount = s.ssq.strokeCount := by simp
  have past : (reportOutcome { st with laser := (settleLaser st (climbBy (climbedDistance s.srs.active.takeUp st) s)).1.laser }
      (strokeCounted st s)).ssq.history = s.ssq.history := by
    rw [(reportOutcome_ssq _ _).2.2.2.2.2]
    simp [strokeCounted]
  rw [strokeClosed, ← past, ← settleLaser_laser]
  simp only [completeSettle, count]
  rw [settleLaser_laser]
  rfl

/-- The report leaves the station. -/
theorem reportOutcome_station (st : Stroke) (s : State) : ownStation (reportOutcome st s) = ownStation s := by
  by_cases kind : st.kind = .calibration
  · rw [reportOutcome_calibration kind]
    show stationOf (calibrationOutcome st s.srs).active = stationOf s.srs.active
    rw [calibrationOutcome_active]
    rfl
  · rw [reportOutcome_stroke kind]
    split
    · simp [ownStation, windowJoined]
    · rfl

/-- The end cause of a stroke that is no successful calibration (R76, R88). -/
theorem endCauseOf_plain {st : Stroke} (h : st.kind ≠ .calibration ∨ calibratedStroke st = none) : endCauseOf st =
    match st.faults with
    | f :: _ => faultCause f
    | [] => riseCause st.riseEnd := by
  refine if_neg fun ⟨kind, success⟩ => ?_
  rcases h with h | h
  · exact h kind
  · simp [h] at success

theorem endCauseOf_calibration {st : Stroke} (kind : st.kind = .calibration) (success : calibratedStroke st ≠ none) :
    endCauseOf st = .calibration := if_pos ⟨kind, Option.isSome_iff_ne_none.2 success⟩

theorem anySubstituted_iff (st : Stroke) : anySubstituted st = true ↔
    ∃ p, p.substituted = true ∧ (st.startSample = some p ∨ st.topSample = some p ∨ st.endSample = some p) := by
  have one (o : Option Sample) : (o.map Sample.substituted).getD false = true ↔ ∃ p, p.substituted = true ∧ o = some p := by
    cases o <;> simp
  simp only [anySubstituted, List.any_cons, List.any_nil, Bool.or_false, Bool.or_eq_true, one]
  constructor
  · rintro (⟨p, h, e⟩ | ⟨p, h, e⟩ | ⟨p, h, e⟩)
    · exact ⟨p, h, .inl e⟩
    · exact ⟨p, h, .inr (.inl e)⟩
    · exact ⟨p, h, .inr (.inr e)⟩
  · rintro ⟨p, h, e | e | e⟩
    · exact .inl ⟨p, h, e⟩
    · exact .inr (.inl ⟨p, h, e⟩)
    · exact .inr (.inr ⟨p, h, e⟩)

/-- What the report of a stroke that is no calibration leaves (R77, R137, R141). -/
theorem reportOutcome_reported {st : Stroke} (kind : st.kind ≠ .calibration) (s : State) :
    (reportOutcome st s).srs = s.srs ∧
    (2 ≤ (reportOutcome st s).mct.window.sum → (reportOutcome st s).mct.safe.strokeRepeat = true ∧
      causeAdded (some .strokeRepeat) { s.mct.safe with strokeRepeat := true } (windowJoined st.faults.length s) (reportOutcome st s)) ∧
    ((reportOutcome st s).mct.window.sum < 2 → reportOutcome st s = windowJoined st.faults.length s) ∧
    (s.fct.pour ≠ .pouring → (reportOutcome st s).lco = s.lco) := by
  have window := reportOutcome_window st s
  rw [if_neg kind] at window
  rw [window, reportOutcome_stroke kind]
  have spec : causeAdded (some .strokeRepeat) { s.mct.safe with strokeRepeat := true } (windowJoined st.faults.length s)
    (addSafe .strokeRepeat (windowJoined st.faults.length s)) := addSafe_spec .strokeRepeat _
  by_cases repeats : 2 ≤ ((st.faults.length :: s.mct.window).take 10).sum
  · rw [if_pos repeats]
    refine ⟨by simp [windowJoined], fun _ => ⟨?_, spec⟩, fun few => absurd repeats (not_le.2 few), fun pour => ?_⟩
    · rw [(addSafe_mct .strokeRepeat _).1]; rfl
    · exact (causeAdded_column spec pour).trans rfl
  · rw [if_neg repeats]
    exact ⟨rfl, fun many => absurd many repeats, fun _ => rfl, fun _ => rfl⟩

/-- SRS at a calibration stroke's completion (R88, R195 to R197). -/
theorem calibration_srs (st : Stroke) (r : Srs) : ∃ step joinMs,
    (r.step = .calibrating → step = .joinListen ∧ joinMs = 0) ∧ (r.step ≠ .calibrating → step = r.step ∧ joinMs = r.joinMs) ∧
    (calibratedStroke st = none → calibrationOutcome st r = { r with step := step, joinMs := joinMs }) ∧
    ∀ m w, calibratedStroke st = some m →
      w = { block := { r.active with fullStroke := some m, calibrateNext := 0, smax := min r.active.smax (m - 10) }, forStore := false } →
        calibrationOutcome st r = { r with
          active := { r.active with fullStroke := some m }
          staged := { r.staged with fullStroke := some m, calibrateNext := 0, smax := min r.staged.smax (m - 10) }
          calibrationPending := false
          write := if r.loadResult = .good ∧ r.write = none then some w else r.write
          stored := if r.loadResult = .good ∧ r.write = none then none else r.stored
          writesWaiting := if r.loadResult = .good ∧ r.write ≠ none then r.writesWaiting ++ [w] else r.writesWaiting
          step := step
          joinMs := joinMs } := by
  refine ⟨if r.step = .calibrating then .joinListen else r.step, if r.step = .calibrating then 0 else r.joinMs,
    fun h => by simp [h], fun h => by simp [h], fun failed => ?_, fun m w success hw => ?_⟩
  · rw [calibrationOutcome_eq, failed]
  · rw [calibrationOutcome_eq, success]
    simp only [calibrationSuccess_eq m r hw]

/-- Settles O59: the climb, the laser, the report and the record of a completion, and the laser by itself. -/
theorem settleAndLaser : Obligations.SettleAndLaser := by
  refine ⟨fun st s hl => ?_, fun s => ⟨fun plane b seen => ⟨⟨fun near low high => ?_, laserCorrect_far seen⟩, ?_⟩, laser_unseen⟩⟩
  · obtain ⟨climbs, unstarted, travels⟩ := climbedDistance_spec s.srs.active.takeUp st
    have height := heightSettled hl s climbs rfl
    have closed := completeSettle_eq (st := st) (s := s) rfl
    have counted : strokeCounted st s = (settleLaser st (climbBy (climbedDistance s.srs.active.takeUp st) s)).2.setSsq
      { (settleLaser st (climbBy (climbedDistance s.srs.active.takeUp st) s)).2.ssq with
        strokeCount := (s.ssq.strokeCount + 1) % 256 } := rfl
    generalize (settleLaser st (climbBy (climbedDistance s.srs.active.takeUp st) s)).2 = q at height counted
    generalize hc : (settleLaser st (climbBy (climbedDistance s.srs.active.takeUp st) s)).1.laser = c at height closed
    generalize hd : climbedDistance s.srs.active.takeUp st = d at *
    generalize strokeCounted st s = z at closed counted
    have reported := reportOutcome_reported (st := { st with laser := c }) (s := z)
    have onlyCalibrates := reportOutcome_calibration (st := { st with laser := c }) (s := z)
    have ySsq := reportOutcome_ssq { st with laser := c } z
    have yWindow := reportOutcome_window { st with laser := c } z
    have station := reportOutcome_station { st with laser := c } z
    generalize reportOutcome { st with laser := c } z = y at closed reported onlyCalibrates ySsq yWindow station
    obtain ⟨yHeight, yValid, yLimit, yDisagree, yCount, -⟩ := ySsq
    refine ⟨_, d, min 1000000 (s.ssq.height + d), c, closed, rfl, climbs, unstarted, travels, rfl, ?_⟩
    obtain ⟨unread, read, alone, shifted, shape⟩ := height
    obtain ⟨H, L, D, column, rfl⟩ : ∃ H L D column, q = (s.setSsq { s.ssq with
        height := H, heightLimit := L, laserDisagree := D }).setLco column := ⟨_, _, _, _, shape⟩
    subst counted
    refine ⟨fun h => ⟨(unread h).1, yDisagree.trans (unread h).2⟩, fun plane b valid seen => ⟨fun near => ?_, fun far => ?_⟩,
      fun h => ⟨yHeight.trans (alone h).1, fun above => yLimit.trans ((alone h).2.1 above)⟩,
      fun x hx low => ⟨yHeight.trans (shifted x hx low).1, fun below => yLimit.trans ((shifted x hx low).2.1 below)⟩,
      yValid, yCount, rfl, rfl, rfl, rfl, (calibratedStroke_spec st).1, (calibratedStroke_spec st).2, endCauseOf_calibration,
      fun h => ⟨fun f rest hf => ?_, fun e none he => ?_⟩, anySubstituted_iff st, fun set => ?_, fun kind => ?_, fun few => ?_, ?_,
      fun kind => ?_, fun pour => ?_⟩
    · exact ⟨((read plane b valid seen).1 near).1, yDisagree.trans ((read plane b valid seen).1 near).2⟩
    · exact ⟨((read plane b valid seen).2 far).1, yDisagree.trans ((read plane b valid seen).2 far).2⟩
    · rw [endCauseOf_plain h, hf]
      cases f <;> rfl
    · rw [endCauseOf_plain h, none, he]
      cases e <;> rfl
    · show (wantLevelPost (ownStation y) y.lif).levelSlot.isSome = true
      have stationed : ownStation y ≠ 0 := by rw [station]; exact set
      rw [wantLevelPost, if_neg stationed]
      simp [fillSlot_eq]
    · obtain ⟨srs, repeats, -, -⟩ := reported kind
      rw [if_neg kind] at yWindow
      exact ⟨yWindow, srs, fun many => (repeats many).1⟩
    · by_cases kind : st.kind = .calibration
      · rw [onlyCalibrates kind]
        exact ⟨rfl, rfl, rfl, rfl⟩
      · rw [(reported kind).2.2.1 (few.resolve_left kind)]
        exact ⟨rfl, rfl, rfl, rfl⟩
    · refine ⟨((((s.setSsq { s.ssq with
          height := H, heightLimit := L, laserDisagree := D, strokeCount := (s.ssq.strokeCount + 1) % 256 }).setLco column).setSrs
            y.srs).setMct { s.mct with window := y.mct.window }), y, ?_, fun h => (alone h).2.2,
        fun k hk low => (shifted k hk low).2.2, fun few => ?_, fun kind many => ?_, ?_⟩
      · have past (r : HistoryRec) : (strokeClosed s r y).ssq.height = H ∧ (strokeClosed s r y).ssq.heightLimit = L ∧
            (strokeClosed s r y).ssq.laserDisagree = D ∧ (strokeClosed s r y).ssq.strokeCount = (s.ssq.strokeCount + 1) % 256 :=
          ⟨yHeight, yLimit, yDisagree, yCount⟩
        rw [(past _).1, (past _).2.1, (past _).2.2.1, (past _).2.2.2]
        rfl
      · by_cases kind : st.kind = .calibration
        · rw [onlyCalibrates kind]; rfl
        · rw [(reported kind).2.2.1 (few.resolve_left kind)]; rfl
      · obtain ⟨srs, repeats, -, -⟩ := reported kind
        rw [if_neg kind] at yWindow
        rw [srs, yWindow]
        exact (repeats many).2
      · have stationed : ownStation y = ownStation s := station
        rw [← stationed]
        rfl
    · rw [if_pos kind] at yWindow
      have stroke : calibratedStroke { st with laser := c } = calibratedStroke st := rfl
      obtain ⟨step, joinMs, waits, other, failed, success⟩ := calibration_srs { st with laser := c } s.srs
      have srs : y.srs = calibrationOutcome { st with laser := c } s.srs := by rw [onlyCalibrates kind]; rfl
      exact ⟨yWindow, step, joinMs, waits, other, fun h => srs.trans (failed h), fun m w hm hw => srs.trans (success m w hm hw)⟩
    · have column : y.lco = column := by
        by_cases kind : st.kind = .calibration
        · rw [onlyCalibrates kind]; rfl
        · exact (reported kind).2.2.2 pour
      refine ⟨fun h => column.trans (alone h).2.2, fun k hk low => column.trans (shifted k hk low).2.2⟩
  · have zero : Int.tdiv (laserAt plane b s - s.ssq.height) 4 = 0 ↔
        s.ssq.height + Int.tdiv (laserAt plane b s - s.ssq.height) 4 = s.ssq.height := by omega
    have difference : s.ssq.height + Int.tdiv (laserAt plane b s - s.ssq.height) 4 - s.ssq.height =
        Int.tdiv (laserAt plane b s - s.ssq.height) 4 := by omega
    unfold shiftedTo
    rw [laserCorrect_near seen rfl near low high, State.setSsq_ssq, difference]
    simp only [zero]
    rfl
  · unfold shiftedTo
    rw [laserAdopt_seen seen]
    rfl

end Sys2Proof.Machine
end

section
/-! HALT posts, the E-stop, the key, the beam input and the lamps (R121, R134, R138, R144 to R146, R202 to R204). -/

namespace Sys2Proof.Machine

/-! ### The lamps (R202 to R204) -/

theorem anyChannelFaulted_iff (t : ChanTable) : anyChannelFaulted t = true ↔ ∃ c, (entryOf t c).state = .faulted := by
  have entries : entriesOf t =
      [Channel.j1, .j2, .j3, .j4, .pres, .fill, .t1, .t2, .t3, .t4, .beam].map (entryOf t) := rfl
  rw [anyChannelFaulted, entries, List.any_map, List.any_eq_true]
  constructor
  · rintro ⟨c, -, h⟩
    exact ⟨c, of_decide_eq_true h⟩
  · rintro ⟨c, h⟩
    exact ⟨c, by cases c <;> simp, decide_eq_true h⟩

theorem lampSource_iff {n : Int} (low : 0 ≤ n) (high : n ≤ 11) (s : State) : lampSource s n = true ↔ sourceOn n s := by
  have above (o : Option Int) (p : Int → Prop) [DecidablePred p] :
      (match o with | some d => decide (p d) | none => false) = true ↔ ∃ d, o = some d ∧ p d := by cases o <;> simp
  interval_cases n
  · exact decide_eq_true_iff
  · exact decide_eq_true_iff
  · exact decide_eq_true_iff
  · exact decide_eq_true_iff
  · exact decide_eq_true_iff
  · exact Iff.rfl
  · exact above s.cpl.record.offset fun d => 50 < d
  · exact above s.cpl.record.offset fun d => d < -50
  · exact Iff.rfl
  · show (anyChannelFaulted s.msq.table || decide (s.fct.gate = .jammed)) = true ↔ _
    rw [Bool.or_eq_true, anyChannelFaulted_iff, decide_eq_true_iff]
    rfl
  · exact ⟨fun _ => trivial, fun _ => rfl⟩
  · exact ⟨fun h => (nomatch h), False.elim⟩

/-- A lamp that is driven shows its demand in its blink part (R203). -/
theorem lampOutput_iff {code : Int} {s : State} (lit : s.ldr.lit = true) (low : 0 ≤ code) (high : code ≤ 95) :
    lampOutput s code = true ↔
      (sourceOn (code / 8) s ↔ code % 2 = 0) ∧ (code % 8 / 2 = 1 → s.ldr.slowOn = true) ∧
        (code % 8 / 2 = 2 → s.ldr.fastOn = true) := by
  have demand : lampDemand s code = true ↔ (sourceOn (code / 8) s ↔ code % 2 = 0) := by
    have inverted : code % 2 = 1 ↔ ¬ code % 2 = 0 := by omega
    rw [← lampSource_iff (by omega) (by omega) s, lampDemand]
    simp only [inverted]
    by_cases even : code % 2 = 0 <;> cases lampSource s (code / 8) <;> simp [even]
  rw [lampOutput, lit, Bool.true_and, Bool.and_eq_true, demand]
  refine and_congr_right fun _ => ?_
  have h0 : 0 ≤ code % 8 / 2 := by omega
  have h3 : code % 8 / 2 ≤ 3 := by omega
  generalize code % 8 / 2 = part at h0 h3 ⊢
  interval_cases part <;> simp

theorem lampOutputs_default {s : State} (lit : s.ldr.lit = true) (h : s.srs.active = defaultSettings) : lampOutputs s =
    [decide (modeOf s.mct = .safe) && s.ldr.fastOn, decide (modeOf s.mct = .hold),
      decide (s.fct.gate = .opening ∨ s.fct.gate = .opened) && s.ldr.slowOn] := by
  simp [lampOutputs, lampOutput, lampDemand, lampSource, lit, h, defaultSettings]

/-! ### Hold causes -/

theorem holdPut_ne (h : HoldSet) (c : HoldCause) : holdPut h c true ≠ noHold := fun e => by
  have member : (fun f : HoldSet => match c with
    | .operator => f.operator | .haltClimb => f.haltClimb | .haltAll => f.haltAll | .estop => f.estop | .key => f.key
    | .mute => f.mute | .sense => f.sense) (holdPut h c true) = true := by cases c <;> rfl
  rw [e] at member
  cases c <;> cases member

/-- A hold cause added in CLIMB makes the mode HOLD (R134, R136). -/
theorem addHold_climb (c : HoldCause) {s : State} (climbs : modeOf s.mct = .climb) : modeOf (addHold c s).mct = .hold := by
  obtain ⟨b, mct⟩ := addHold_mct c s
  have mode : modeOf (addHold c s).mct = modeOf { s.mct with hold := holdPut s.mct.hold c true } := by
    rw [mct]
    exact modeOf_settling { s.mct with hold := holdPut s.mct.hold c true } b
  have calm : s.mct.safe = noSafe := not_not.1 ((modeOf_safe_iff _).not.1 (by rw [climbs]; nofun))
  rw [mode]
  cases hb : s.mct.base with
  | setup => rw [modeOf_setup calm hb] at climbs; cases climbs
  | running =>
    exact (modeOf_running (m := { s.mct with hold := holdPut s.mct.hold c true }) calm hb).trans (if_neg (holdPut_ne _ _))

/-- What a hold cause leaves of the stroke (R78, R138). -/
theorem addHold_stroke (c : HoldCause) (s : State) : (isCutCause c = false → (addHold c s).ssq = s.ssq ∧ (addHold c s).msq = s.msq) ∧
    (isCutCause c = true → (addHold c s).ssq = cutLeaves s ∧ (addHold c s).msq = cutWithdraws s) := by
  refine ⟨fun h => by simp [addHold, h], fun h => ?_⟩
  simp only [addHold, h, if_true, cutStroke_eq]
  simp
  exact ⟨rfl, rfl⟩

theorem addHold_causes (c : HoldCause) (s : State) : (addHold c s).mct.hold = holdPut s.mct.hold c true ∧
    (addHold c s).mct.base = s.mct.base ∧ (addHold c s).mct.safe = s.mct.safe ∧ (addHold c s).mct.queuedHalt = s.mct.queuedHalt ∧
    (addHold c s).mct.lastHalt = s.mct.lastHalt ∧ (addHold c s).mct.key = s.mct.key ∧
    (addHold c s).mct.estopActive = s.mct.estopActive := by
  obtain ⟨b, mct⟩ := addHold_mct c s
  rw [mct]
  exact ⟨rfl, rfl, rfl, rfl, rfl, rfl, rfl⟩

theorem addHold_elsewhere (c : HoldCause) (s : State) : SameElsewhere s (addHold c s) :=
  ⟨by simp, by simp, by simp, by simp, by simp, by simp, by simp, by simp⟩

theorem removeHold_elsewhere (c : HoldCause) (s : State) : SameElsewhere s (removeHold c s) :=
  ⟨by simp, by simp, by simp, by simp, by simp, by simp, by simp, by simp⟩

theorem reportBlock_elsewhere (s : State) : SameElsewhere s (reportBlock s) :=
  ⟨by simp, by simp, by simp, by simp, by simp, by simp, by simp, by simp⟩

/-! ### HALT posts, the E-stop and the key (R138, R143 to R146) -/

/-- What follows a change of the causes is a test of the pour block on the same feed and causes (R136). -/
theorem modeFollowed_tested {m : Mct} {s t : State} (h : modeFollowed m s t) : ∃ u, blockTested u t ∧ u.fct = s.fct ∧
    u.pins = s.pins ∧ u.mct.hold = s.mct.hold := by
  obtain ⟨u, b, tested, -, hu⟩ := h
  exact ⟨u, tested, by rw [hu]; rfl, by rw [hu]; rfl, by rw [hu]; rfl⟩

/-- The halt that has been heard recorded (R144). -/
def haltRecorded (sender : Nat) (p : HaltPost) (rest : List RxPost) (s : State) : State :=
  (removed rest s).setMct { s.mct with lastHalt := some { sender := sender, post := p, minute := s.lco.runClock } }

theorem exec_haltTaken {sender : Nat} {p : HaltPost} {rest : List RxPost} {s : State} (h : PostTaken sender (.halt p) rest s) :
    exec (.haltTaken sender p) s = .next (addHold (haltCause p.kind) (haltRecorded sender p rest s)) := by
  show execHaltTaken sender p s = _
  rw [execHaltTaken, takePost_taken h]
  exact congrArg Host.Outcome.next (if_pos (decide_eq_true h.peer))

/-- What a HALT post brings (R138, R144). -/
structure HaltTaken (sender : Nat) (p : HaltPost) (rest : List RxPost) (s t : State) : Prop where
  last : t.mct.lastHalt = some { sender := sender, post := p, minute := s.lco.runClock }
  climb : p.kind = .climb → t.mct.hold = { s.mct.hold with haltClimb := true } ∧ t.ssq = s.ssq ∧ t.msq = s.msq ∧
    modeFollowed s.mct
      ((removed rest s).setMct
        { s.mct with
          lastHalt := some { sender := sender, post := p, minute := s.lco.runClock }
          hold := { s.mct.hold with haltClimb := true } })
      t
  all : p.kind = .all → t.mct.hold = { s.mct.hold with haltAll := true } ∧ t.ssq = cutLeaves s ∧ t.msq = cutWithdraws s ∧
    modeFollowed s.mct
      ((((removed rest s).setSsq (cutLeaves s)).setMsq (cutWithdraws s)).setMct
        { s.mct with
          lastHalt := some { sender := sender, post := p, minute := s.lco.runClock }
          hold := { s.mct.hold with haltAll := true } })
      t
  base : t.mct.base = s.mct.base
  safe : t.mct.safe = s.mct.safe
  queued : t.mct.queuedHalt = s.mct.queuedHalt
  mode : modeOf s.mct = .climb → modeOf t.mct = .hold
  fifo : t.lif.fifo = rest
  elsewhere : SameElsewhere s t

theorem haltTaken_taken (sender : Nat) (p : HaltPost) (rest : List RxPost) (s : State) :
    HaltTaken sender p rest s (addHold (haltCause p.kind) (haltRecorded sender p rest s)) := by
  obtain ⟨hold, base, safe, queued, last, -⟩ := addHold_causes (haltCause p.kind) (haltRecorded sender p rest s)
  have ⟨pvw, cpl, srs, ldr, pins, now, free, pending⟩ := addHold_elsewhere (haltCause p.kind) (haltRecorded sender p rest s)
  refine ⟨last, fun kind => ?_, fun kind => ?_, base, safe, queued, addHold_climb (s := haltRecorded sender p rest s) _, ?_,
    ⟨pvw, cpl, srs, ldr, pins, now, free, pending⟩⟩
  · rw [kind] at hold ⊢
    obtain ⟨ssq, msq⟩ := (addHold_stroke .haltClimb (haltRecorded sender p rest s)).1 rfl
    exact ⟨hold, ssq, msq, addHold_finishes .haltClimb rfl (haltRecorded sender p rest s)⟩
  · rw [kind] at hold ⊢
    obtain ⟨ssq, msq⟩ := (addHold_stroke .haltAll (haltRecorded sender p rest s)).2 rfl
    exact ⟨hold, ssq, msq, addHold_cuts .haltAll rfl (haltRecorded sender p rest s)⟩
  · simp [haltRecorded, removed]

theorem queueHalt_same (p : HaltPost) (s : State) :
    ∃ l q, queueHalt p s = (s.setLif l).setMct { s.mct with queuedHalt := q } := by
  unfold queueHalt
  split
  · exact ⟨s.lif, s.mct.queuedHalt, rfl⟩
  · exact ⟨_, _, rfl⟩

/-- What the E-stop brings (R138, R143, R145). -/
structure EstopEntered (s t : State) : Prop where
  active : t.mct.estopActive = true
  follows : ∃ u, haltQueued { kind := .all, reason := .estop } u t ∧
    modeFollowed s.mct
      (((s.setSsq (cutLeaves s)).setMsq (cutWithdraws s)).setMct
        { s.mct with estopActive := true, hold := { s.mct.hold with estop := true } })
      u
  hold : t.mct.hold = { s.mct.hold with estop := true }
  ssq : t.ssq = cutLeaves s
  msq : t.msq = cutWithdraws s
  base : t.mct.base = s.mct.base
  safe : t.mct.safe = s.mct.safe
  elsewhere : SameElsewhere s t
  halt : ownStation s ≠ 0 → s.mct.safe.identityClash = false →
    t.mct.queuedHalt = some { kind := .all, reason := .estop } ∧
      t.lif.haltSlot.map Slot.post = some { kind := .all, reason := .estop }
  pour : s.fct.blocked = false → s.fct.pour = .pouring → s.pins.gateClosedLimit = false →
    s.fct.gate = .opening ∨ s.fct.gate = .opened → t.fct.pour = .ending ∧ t.fct.gate = .closing

theorem estopOn_entered (s : State) : EstopEntered s (estopOn s) := by
  have follows := addHold_cuts .estop rfl (s.setMct { s.mct with estopActive := true })
  obtain ⟨hold, base, safe, -, -, -, active⟩ := addHold_causes .estop (s.setMct { s.mct with estopActive := true })
  obtain ⟨ssq, msq⟩ := (addHold_stroke .estop (s.setMct { s.mct with estopActive := true })).2 rfl
  have ⟨pvw, cpl, srs, ldr, pins, now, free, pending⟩ := addHold_elsewhere .estop (s.setMct { s.mct with estopActive := true })
  show EstopEntered s (queueHalt { kind := .all, reason := .estop } (addHold .estop (s.setMct { s.mct with estopActive := true })))
  generalize addHold .estop (s.setMct { s.mct with estopActive := true }) = u at *
  have queues := queueHalt_spec { kind := .all, reason := .estop } u
  obtain ⟨l, q, same⟩ := queueHalt_same { kind := .all, reason := .estop } u
  have station : ownStation u = ownStation s := congrArg (fun r => stationOf (Srs.active r)) srs
  refine ⟨?_, ⟨u, queues, follows⟩, ?_, ?_, ?_, ?_, ?_, ?_, fun set clear => ?_, fun free pours limit gate => ?_⟩
  · rw [same]; exact active
  · rw [same]; exact hold
  · rw [same]; exact ssq
  · rw [same]; exact msq
  · rw [same]; exact base
  · rw [same]; exact safe
  · rw [same]; exact ⟨pvw, cpl, srs, ldr, pins, now, free, pending⟩
  · have unclashed : u.mct.safe.identityClash = false := by rw [safe]; exact clear
    rw [queues.2 (by rw [station]; exact set) unclashed (.inl rfl)]
    refine ⟨rfl, ?_⟩
    simp [queueHaltPost, fillSlot_post]
  · obtain ⟨v, tested, fct, inputs, holds⟩ := modeFollowed_tested follows
    have blocked : blockedNow v := .inr (.inr (.inl (by rw [holds]; rfl)))
    have ended := blockTested_pouring tested blocked (by rw [fct]; exact free) (by rw [fct]; exact pours)
      (by rw [inputs]; exact limit) (by rw [fct]; exact gate)
    rw [same]
    exact ended

theorem exec_keyChange {s : State} (runs : blocksRun s = true) (k : KeyContacts) : exec (.keyChange k) s =
    .next (if keyPosition k ≠ s.mct.key then keyTo (keyPosition k) s else s) := by
  show execKeyChange k s = _
  rw [execKeyChange]
  simp only [runs, true_and]

theorem keyPosition_eq (k : KeyContacts) : keyPosition k =
    if k.run = true ∧ k.hold = false ∧ k.service = false then .run
    else if k.run = false ∧ k.hold = false ∧ k.service = true then .service else .hold := by
  obtain ⟨run, hold, service⟩ := k
  cases run <;> cases hold <;> cases service <;> rfl

/-- What a change of the key's position brings (R138, R146). -/
structure KeyEntered (pos : KeyPos) (s t : State) : Prop where
  key : t.mct.key = pos
  run : s.mct.key = .run → t.mct.hold = { s.mct.hold with key := true } ∧ t.ssq = cutLeaves s ∧ t.msq = cutWithdraws s ∧
    modeFollowed s.mct
      (((s.setSsq (cutLeaves s)).setMsq (cutWithdraws s)).setMct
        { s.mct with key := pos, hold := { s.mct.hold with key := true } })
      t
  other : s.mct.key ≠ .run →
    t.mct.hold = (if pos = .run then { s.mct.hold with key := false } else s.mct.hold) ∧ t.ssq = s.ssq ∧ t.msq = s.msq ∧
      (pos = .run → modeFollowed s.mct (s.setMct { s.mct with key := pos, hold := { s.mct.hold with key := false } }) t) ∧
      (pos ≠ .run → blockTested (s.setMct { s.mct with key := pos }) t)
  base : t.mct.base = s.mct.base
  safe : t.mct.safe = s.mct.safe
  elsewhere : SameElsewhere s t

theorem keyTo_entered (s : State) {pos : KeyPos} : KeyEntered pos s (keyTo pos s) := by
  unfold keyTo
  by_cases run : s.mct.key = .run
  · rw [if_pos run]
    have follows := addHold_cuts .key rfl (s.setMct { s.mct with key := pos })
    obtain ⟨hold, base, safe, -, -, key, -⟩ := addHold_causes .key (s.setMct { s.mct with key := pos })
    obtain ⟨ssq, msq⟩ := (addHold_stroke .key (s.setMct { s.mct with key := pos })).2 rfl
    have ⟨pvw, cpl, srs, ldr, pins, now, free, pending⟩ := addHold_elsewhere .key (s.setMct { s.mct with key := pos })
    exact ⟨key, fun _ => ⟨hold, ssq, msq, follows⟩, fun h => absurd run h, base, safe,
      ⟨pvw, cpl, srs, ldr, pins, now, free, pending⟩⟩
  · rw [if_neg run]
    by_cases returns : pos = .run
    · rw [if_pos returns]
      obtain ⟨b, mct⟩ := removeHold_mct .key (s.setMct { s.mct with key := pos })
      have follows := removeHold_spec .key (s.setMct { s.mct with key := pos })
      have ⟨pvw, cpl, srs, ldr, pins, now, free, pending⟩ := removeHold_elsewhere .key (s.setMct { s.mct with key := pos })
      refine ⟨by rw [mct]; rfl, fun h => absurd h run, fun _ => ⟨?_, by simp, by simp, fun _ => follows, fun h => absurd returns h⟩,
        by rw [mct]; rfl, by rw [mct]; rfl, ⟨pvw, cpl, srs, ldr, pins, now, free, pending⟩⟩
      rw [mct, if_pos returns]
      rfl
    · rw [if_neg returns]
      have ⟨pvw, cpl, srs, ldr, pins, now, free, pending⟩ := reportBlock_elsewhere (s.setMct { s.mct with key := pos })
      refine ⟨by simp, fun h => absurd h run, fun _ => ⟨?_, by simp, by simp, fun h => absurd h returns, fun _ => reportBlock_spec _⟩,
        by simp, by simp, ⟨pvw, cpl, srs, ldr, pins, now, free, pending⟩⟩
      simp [returns]

/-- Settles O60: the lamps, the mode and the pour block, and each input by the cause it adds or removes. -/
theorem haltAndInputs : Obligations.HaltAndInputs := by
  refine ⟨pourBlocked_iff, fun m => ?_, fun s => ⟨rfl, fun code dark => ?_, fun code lit low high => lampOutput_iff lit low high,
    lampOutputs_default⟩, fun s runs => ⟨fun sender p rest h => ?_, fun sender p own => ?_, fun sender p rest h => ?_, fun off => ?_,
      fun on => ?_, fun k => ?_, fun on changed => ?_, fun lit => ?_⟩⟩
  · by_cases safe : m.safe = noSafe
    · cases base : m.base <;> by_cases hold : m.hold = noHold <;> simp [modeOf, safe, base, hold]
    · simp [modeOf, safe]
  · simp [lampOutput, dark]
  · have taken := haltTaken_taken sender p rest s
    rw [exec_haltTaken h]
    generalize addHold (haltCause p.kind) (haltRecorded sender p rest s) = t at taken
    obtain ⟨last, climb, all, base, safe, queued, mode, fifo, elsewhere⟩ := taken
    exact ⟨t, rfl, last, fun kind => ⟨(climb kind).1, (climb kind).2.1, (climb kind).2.2.1⟩,
      fun kind => ⟨(all kind).1, (all kind).2.1, (all kind).2.2.1⟩, fun kind => (climb kind).2.2.2, fun kind => (all kind).2.2.2,
      base, safe, queued, mode, fifo, elsewhere⟩
  · show execHaltTaken sender p s = _
    rw [execHaltTaken, takePost_own _ own]
  · obtain ⟨taken, outside⟩ := takePost_outside h
    show execHaltTaken sender p s = _
    rw [execHaltTaken, taken]
    exact congrArg Host.Outcome.next (if_neg (by simp [outside]))
  · have entered := estopOn_entered s
    rw [show exec (.estopChange true) s = .next (estopOn s) from congrArg Host.Outcome.next (if_pos ⟨runs, by simp [off]⟩)]
    generalize estopOn s = t at entered
    obtain ⟨active, follows, hold, ssq, msq, base, safe, elsewhere, halt, pour⟩ := entered
    exact ⟨t, rfl, active, follows, hold, ssq, msq, base, safe, elsewhere, halt, pour⟩
  · show execEstopChange false s = _
    rw [execEstopChange, if_pos ⟨runs, by simp [on]⟩]
    rfl
  · have entered := keyTo_entered s (pos := keyPosition k)
    rw [exec_keyChange runs]
    by_cases same : keyPosition k = s.mct.key
    · rw [if_neg (not_not.2 same)]
      exact ⟨s, _, rfl, keyPosition_eq k, fun _ => rfl, fun h => absurd same h, fun h => absurd same h, fun h => absurd same h, rfl, rfl,
        ⟨rfl, rfl, rfl, rfl, rfl, rfl, rfl, rfl⟩⟩
    · rw [if_pos same]
      generalize keyTo (keyPosition k) s = t at entered
      obtain ⟨key, run, other, base, safe, elsewhere⟩ := entered
      exact ⟨t, _, rfl, keyPosition_eq k, fun h => absurd h same, fun _ => key, fun _ => run, fun _ => other, base, safe, elsewhere⟩
  · show execBeamPresentChange on s = _
    rw [execBeamPresentChange]
    refine congrArg Host.Outcome.next ((if_pos ⟨runs, changed⟩).trans ?_)
    cases on <;> rfl
  · have up : s.srs.life = .up := ((blocksRun_iff s).1 runs).1
    exact ⟨congrArg Host.Outcome.next (if_pos ⟨up, lit⟩), congrArg Host.Outcome.next (if_pos ⟨up, lit⟩)⟩

end Sys2Proof.Machine
end

section
/-! What a conversion's readers leave of MSQ and SSQ (R69, R70, R73, R79, R120 to R130): the laws of the tests and of the chain's end. -/

namespace Sys2Proof.Machine

/-! ### The result table and the scan (R116, R122, R123) -/

theorem entryOf_setEntry (t : ChanTable) (c d : Channel) (e : ChanEntry) :
    entryOf (setEntry t c e) d = if d = c then e else entryOf t d := by
  cases c <;> cases d <;> rfl

/-- The state a conversion leaves before it is announced (R120). -/
def converted (raw : Nat) (s : State) : State := s.setMsq (convertMsq raw s.msq)

theorem convertMsq_scan {m : Msq} (raw : Nat) (h : m.chain = none) : convertMsq raw m =
    { m with
      table := setEntry m.table m.scan (entryAfter m.scan raw (entryOf m.table m.scan))
      scan := nextChannel m.scan, passDone := m.passDone || decide (m.scan = .beam) } := by
  simp only [convertMsq, channelInFlight, h]

theorem convertMsq_chain {m : Msq} {ch : Chain} (raw : Nat) (h : m.chain = some ch) : convertMsq raw m =
    { m with
      table := setEntry m.table (channelInFlight m) (entryAfter (channelInFlight m) raw (entryOf m.table (channelInFlight m)))
      chain := some { ch with
        done := ch.done ++ [sampleElem (channelInFlight m) raw (entryOf m.table (channelInFlight m))] } } := by
  simp only [convertMsq, h]

theorem convertMsq_table (raw : Nat) (m : Msq) : (convertMsq raw m).table =
    setEntry m.table (channelInFlight m) (entryAfter (channelInFlight m) raw (entryOf m.table (channelInFlight m))) := by
  cases h : m.chain with
  | none => simp only [convertMsq_scan raw h, channelInFlight, h]
  | some ch => rw [convertMsq_chain raw h]

theorem convertMsq_pending (raw : Nat) (m : Msq) : (convertMsq raw m).pendingTrigger = m.pendingTrigger := by
  cases h : m.chain with
  | none => rw [convertMsq_scan raw h]
  | some ch => rw [convertMsq_chain raw h]

/-- The channels of a chain are the jacks and PRES, PRES last (R122). -/
theorem channelInFlight_chain {m : Msq} {ch : Chain} (h : m.chain = some ch) :
    isJackOrPres (channelInFlight m) = true ∧ (isJack (channelInFlight m) = true → ch.done.length < 4) ∧
      (4 ≤ ch.done.length → channelInFlight m = .pres) := by
  have e : channelInFlight m = (chainOrder[ch.done.length]?).getD .pres := by rw [channelInFlight, h]
  rw [e]
  generalize ch.done.length = n
  match n with
  | 0 => exact ⟨rfl, fun _ => by decide, nofun⟩
  | 1 => exact ⟨rfl, fun _ => by decide, fun h => absurd h (by decide)⟩
  | 2 => exact ⟨rfl, fun _ => by decide, fun h => absurd h (by decide)⟩
  | 3 => exact ⟨rfl, fun _ => by decide, fun h => absurd h (by decide)⟩
  | n + 4 =>
    have last : (chainOrder[n + 4]?).getD .pres = .pres := by cases n <;> rfl
    rw [last]
    exact ⟨rfl, nofun, fun _ => rfl⟩

/-! ### Samples delivered, and the end of a chain (R123 to R125) -/

/-- A sample set that does not complete SETTLE is stored, and no more. -/
theorem deliverSample_stores {tag : Tag} {s : State} (h : ¬ (tag = .finish ∧ s.ssq.phase = .settle)) (p : Sample) :
    deliverSample tag p s = s.setSsq (sampleStored tag p s.ssq) := by
  cases hs : s.ssq.stroke with
  | none =>
    have same : sampleStored tag p s.ssq = s.ssq := by simp only [sampleStored, hs, Option.map_none]; rw [← hs]
    rw [same, deliverSample, hs]
    rfl
  | some st =>
    rw [deliverSample, hs]
    refine (if_neg h).trans (congrArg s.setSsq ?_)
    rw [sampleStored, hs]
    cases tag <;> rfl

theorem deliverSample_completes {s : State} {st : Stroke} (hp : s.ssq.phase = .settle) (hs : s.ssq.stroke = some st) (p : Sample) :
    deliverSample .finish p s = completeSettle { st with endSample := some p }
      (s.setSsq { s.ssq with stroke := some { st with endSample := some p } }) := by
  rw [deliverSample, hs]
  exact if_pos ⟨rfl, hp⟩

/-- A sample set delivered leaves MSQ: the END sample's completion comes in SETTLE, where nothing is cut. -/
theorem deliverSample_msq (tag : Tag) (p : Sample) (s : State) : (deliverSample tag p s).msq = s.msq := by
  by_cases h : tag = .finish ∧ s.ssq.phase = .settle
  · obtain ⟨rfl, hp⟩ := h
    cases hs : s.ssq.stroke with
    | none => rw [deliverSample, hs]
    | some st =>
      rw [deliverSample_completes hp hs]
      have pressurize : s.ssq.phase ≠ .pressurize := by rw [hp]; nofun
      have lift : s.ssq.phase ≠ .lift := by rw [hp]; nofun
      have kept := (completeSettle_kept { st with endSample := some p }
        (s := s.setSsq { s.ssq with stroke := some { st with endSample := some p } }) pressurize lift).2.2.2.2.1
      rw [kept]
      rfl
  · rw [deliverSample_stores h]
    rfl

/-- Before a chain's fifth conversion nothing is delivered. -/
theorem finishChain_open {s : State} (h : ∀ ch, s.msq.chain = some ch → ch.done.length < 5) : finishChain s = s :=
  (finishChain_spec s).1 h

theorem finishChain_full {s : State} {ch : Chain} (hc : s.msq.chain = some ch) (full : 5 ≤ ch.done.length) :
    finishChain s = (deliverSample ch.tag (sampleOf ch.done) s).setMsq
      { s.msq with
        chain := s.msq.pendingTrigger.map fun tag => { tag := tag, done := [] }
        pendingTrigger := none } := by
  have delivery : chainDelivery s.msq = some (ch.tag, sampleOf ch.done) := by simp [chainDelivery, hc, full]
  have next (m : Msq) : chainCompleted m =
      { m with chain := m.pendingTrigger.map fun tag => { tag := tag, done := [] }, pendingTrigger := none } := by
    cases hp : m.pendingTrigger with
    | none => simp [chainCompleted, hp]
    | some tag => simp [chainCompleted, hp]
  rw [← next s.msq, finishChain, delivery]
  show (deliverSample ch.tag (sampleOf ch.done) s).setMsq
    (chainCompleted (deliverSample ch.tag (sampleOf ch.done) s).msq) = _
  rw [deliverSample_msq]

/-! ### The tests, at MSQ (R73, R78, R129) -/

theorem fireTrigger_msq (tag : Tag) (s : State) : (fireTrigger tag s).msq = triggered tag s.msq := by
  rw [fireTrigger, triggerMsq_eq]
  split
  · exact deliverSample_msq _ _ _
  · rfl

theorem releaseTest_fires {s : State} (hp : s.ssq.phase = .release) (home : homeNow s.srs.active.pRest s.msq.table) :
    releaseTest s = enterSettle (withRelease (elapsedMs s.nowMs (s.ssq.stroke.bind Stroke.releaseEntry) 5000)) s :=
  if_pos ⟨hp, (jacksHome_iff _ _).2 home⟩

theorem releaseTest_rests {s : State} (h : s.ssq.phase ≠ .release ∨ ¬ homeNow s.srs.active.pRest s.msq.table) : releaseTest s = s :=
  (releaseTest_spec s).2 h

theorem releaseTest_msq (s : State) : (releaseTest s).msq = s.msq ∨
    s.ssq.phase = .release ∧ homeNow s.srs.active.pRest s.msq.table ∧ (releaseTest s).msq = triggered .finish s.msq := by
  by_cases h : s.ssq.phase = .release ∧ homeNow s.srs.active.pRest s.msq.table
  · refine .inr ⟨h.1, h.2, ?_⟩
    rw [releaseTest_fires h.1 h.2]
    exact fireTrigger_msq _ _
  · rw [releaseTest_rests (not_and_or.1 h)]
    exact .inl rfl

/-- The end of RELEASE leaves RELEASE: SETTLE, or IDLE where the trigger is lost (R73, R74, R126). -/
theorem releaseTest_left {s : State} (hp : s.ssq.phase = .release) (home : homeNow s.srs.active.pRest s.msq.table) :
    (releaseTest s).ssq.phase = .settle ∨ (releaseTest s).ssq.phase = .idle := by
  rw [releaseTest_fires hp home, enterSettle, fireTrigger]
  split
  · next p _ =>
    rw [deliverSample]
    split
    · exact .inl rfl
    · exact .inr ((congrArg (fun x : State => x.ssq.phase) (if_pos ⟨rfl, rfl⟩)).trans
        (completeSettle_kept _ (by exact nofun) (by exact nofun)).1)
  · exact .inl rfl

theorem releaseTest_twice (s : State) : releaseTest (releaseTest s) = releaseTest s := by
  by_cases h : s.ssq.phase = .release ∧ homeNow s.srs.active.pRest s.msq.table
  · refine releaseTest_rests (.inl fun e => ?_)
    rcases releaseTest_left h.1 h.2 with left | left <;> exact nomatch left.symm.trans e
  · rw [releaseTest_rests (not_and_or.1 h), releaseTest_rests (not_and_or.1 h)]

/-- LIFT's tests end it or change nothing (R70). -/
theorem liftTest_phase (s : State) : liftTest s = s ∨ (liftTest s).ssq.phase = .topdwell := by
  unfold liftTest
  (repeat' split) <;> simp [leaveLift]

theorem jackTest_lift {s : State} (h : s.ssq.phase = .lift) : jackTest s = liftTest s := by rw [jackTest, h]

theorem jackTest_release {s : State} (h : s.ssq.phase ≠ .lift) : jackTest s = releaseTest s := by
  cases hp : s.ssq.phase with
  | lift => exact absurd hp h
  | release => rw [jackTest, hp]
  | idle => rw [jackTest, hp, releaseTest_rests (.inl (by rw [hp]; nofun))]
  | pressurize => rw [jackTest, hp, releaseTest_rests (.inl (by rw [hp]; nofun))]
  | topdwell => rw [jackTest, hp, releaseTest_rests (.inl (by rw [hp]; nofun))]
  | settle => rw [jackTest, hp, releaseTest_rests (.inl (by rw [hp]; nofun))]

/-- The tests made at a result are made again at the change of state it brings, and find nothing more (R130). -/
theorem jackTest_twice (s : State) : jackTest (jackTest s) = jackTest s := by
  by_cases lift : s.ssq.phase = .lift
  · rw [jackTest_lift lift]
    rcases liftTest_phase s with same | left
    · rw [same, jackTest_lift lift, same]
    · rw [jackTest_release (by rw [left]; nofun), releaseTest_rests (.inl (by rw [left]; nofun))]
  · rw [jackTest_release lift]
    by_cases h : s.ssq.phase = .release ∧ homeNow s.srs.active.pRest s.msq.table
    · have left := releaseTest_left h.1 h.2
      rw [jackTest_release (fun e => by rcases left with left | left <;> exact nomatch left.symm.trans e), releaseTest_twice]
    · rw [releaseTest_rests (not_and_or.1 h), jackTest_release lift, releaseTest_rests (not_and_or.1 h)]

theorem overpressureTest_low {v : Int} {s : State} (h : v ≤ s.srs.active.pOver) :
    overpressureTest v s = s.setSsq { s.ssq with overpressure := false } := if_neg (Int.not_lt.2 h)

theorem overpressureTest_high {v : Int} {s : State} (h : s.srs.active.pOver < v) :
    overpressureTest v s = addSafe .overpressure (s.setSsq { s.ssq with overpressure := true }) := if_pos h

/-- The overpressure condition follows the result, and its SAFE cause cuts at most (R78, R79). -/
theorem overpressureTest_ssq (v : Int) (s : State) :
    (overpressureTest v s).ssq = { s.ssq with overpressure := decide (s.srs.active.pOver < v) } ∨
      s.srs.active.pOver < v ∧ (overpressureTest v s).ssq = cutLeaves (s.setSsq { s.ssq with overpressure := true }) := by
  by_cases h : s.srs.active.pOver < v
  · rw [overpressureTest_high h, decide_eq_true h]
    rcases addSafe_ssq (c := .overpressure) rfl (s.setSsq { s.ssq with overpressure := true }) with same | cut
    · exact .inl same
    · exact .inr ⟨h, cut⟩
  · rw [overpressureTest_low (Int.not_lt.1 h), decide_eq_false h]
    exact .inl rfl

theorem overpressureTest_calm (v : Int) {s : State} (h1 : s.ssq.phase ≠ .pressurize) (h2 : s.ssq.phase ≠ .lift) :
    (overpressureTest v s).ssq = { s.ssq with overpressure := decide (s.srs.active.pOver < v) } ∧
      (overpressureTest v s).msq = s.msq := by
  by_cases h : s.srs.active.pOver < v
  · rw [overpressureTest_high h, decide_eq_true h]
    exact addSafe_calm .overpressure (s := s.setSsq { s.ssq with overpressure := true }) h1 h2
  · rw [overpressureTest_low (Int.not_lt.1 h), decide_eq_false h]
    exact ⟨rfl, rfl⟩

theorem overpressureTest_mark (v : Int) (s : State) :
    (overpressureTest v s).ssq.overpressure = decide (s.srs.active.pOver < v) := by
  rcases overpressureTest_ssq v s with same | ⟨high, cut⟩
  · rw [same]
  · rw [cut, decide_eq_true high, cutLeaves]
    (repeat' split) <;> rfl

theorem overpressureTest_phase (v : Int) (s : State) :
    (overpressureTest v s).ssq.phase = s.ssq.phase ∨ (overpressureTest v s).ssq.phase = .topdwell := by
  rcases overpressureTest_ssq v s with same | ⟨-, cut⟩
  · exact .inl (by rw [same])
  · rw [cut, cutLeaves]
    (repeat' split) <;> simp

theorem addSafe_msq {c : SafeCause} {why : HaltReason} (reason : haltReasonOf c = some why) (s : State) :
    (addSafe c s).msq = s.msq ∨ (addSafe c s).msq = cutWithdraws s := by
  by_cases calm : s.mct.safe = noSafe
  · refine .inr ?_
    rw [addSafe_first reason calm]
    simp [safeCut]
  · rw [(addSafe_spec c s).1 calm]
    exact .inl rfl

theorem overpressureTest_msq (v : Int) (s : State) : (overpressureTest v s).msq = s.msq ∨
    s.srs.active.pOver < v ∧ s.ssq.phase = .pressurize ∧ s.msq.pendingTrigger = some .start ∧
      (overpressureTest v s).msq = { s.msq with pendingTrigger := none } := by
  by_cases h : s.srs.active.pOver < v
  · rw [overpressureTest_high h]
    rcases addSafe_msq (c := .overpressure) rfl (s.setSsq { s.ssq with overpressure := true }) with same | cut
    · exact .inl same
    · by_cases w : s.ssq.phase = .pressurize ∧ s.msq.pendingTrigger = some .start
      · exact .inr ⟨h, w.1, w.2, cut.trans (if_pos w)⟩
      · exact .inl (cut.trans (if_neg w))
  · rw [overpressureTest_low (Int.not_lt.1 h)]
    exact .inl rfl

theorem enterLift_phase (s : State) : (enterLift s).ssq.phase = .lift ∨ (enterLift s).ssq.phase = .topdwell := by
  rw [enterLift]
  generalize hx : s.setSsq { s.ssq with
    phase := .lift, dutyWritten := if s.ssq.dutyInForce = 100 then s.ssq.dutyWritten else 100
    stroke := s.ssq.stroke.map fun st => { st with liftEntry := some s.nowMs } } = x
  rcases liftTest_phase x with same | left
  · rw [same, ← hx]
    exact .inl rfl
  · exact .inr left

theorem pressurePhase_enters {v : Int} {s : State} (hp : s.ssq.phase = .pressurize) (hv : s.srs.active.pLift ≤ v) :
    pressurePhase v s = enterLift s := by
  rw [pressurePhase, hp]
  exact if_pos hv

theorem pressurePhase_stays {v : Int} {s : State} (hp : s.ssq.phase = .pressurize) (hv : v < s.srs.active.pLift) :
    pressurePhase v s = s := (pressurePhase_spec v s).2.1 hp hv

/-- Out of PRESSURIZE a PRES result is tested for the return condition alone (R73). -/
theorem pressurePhase_release {s : State} (v : Int) (h : s.ssq.phase ≠ .pressurize) : pressurePhase v s = releaseTest s := by
  cases hp : s.ssq.phase with
  | pressurize => exact absurd hp h
  | release => rw [pressurePhase, hp]
  | idle => rw [pressurePhase, hp, releaseTest_rests (.inl (by rw [hp]; nofun))]
  | lift => rw [pressurePhase, hp, releaseTest_rests (.inl (by rw [hp]; nofun))]
  | topdwell => rw [pressurePhase, hp, releaseTest_rests (.inl (by rw [hp]; nofun))]
  | settle => rw [pressurePhase, hp, releaseTest_rests (.inl (by rw [hp]; nofun))]

theorem pressurePhase_msq (v : Int) (s : State) : (pressurePhase v s).msq = s.msq ∨
    s.ssq.phase = .release ∧ homeNow s.srs.active.pRest s.msq.table ∧ (pressurePhase v s).msq = triggered .finish s.msq := by
  by_cases hp : s.ssq.phase = .pressurize
  · rw [pressurePhase, hp]
    refine .inl ?_
    show (if s.srs.active.pLift ≤ v then enterLift s else s).msq = s.msq
    split
    · simp
    · rfl
  · rw [pressurePhase_release v hp]
    exact releaseTest_msq s

/-- A good PRES result leaves nothing for the return test of the change of state it brings (R130). -/
theorem releaseTest_pressureResult (v : Int) (s : State) : releaseTest (pressureResult v s) = pressureResult v s := by
  refine releaseTest_rests ?_
  have phase := overpressureTest_phase v (pressurePhase v s)
  by_cases hp : s.ssq.phase = .pressurize
  · refine .inl fun e => ?_
    rw [pressureResult] at e
    by_cases hv : s.srs.active.pLift ≤ v
    · rw [pressurePhase_enters hp hv] at phase e
      rcases phase with phase | phase
      · rcases enterLift_phase s with h | h <;> exact nomatch (phase.trans h).symm.trans e
      · exact nomatch phase.symm.trans e
    · rw [pressurePhase_stays hp (Int.not_le.1 hv)] at phase e
      rcases phase with phase | phase
      · exact nomatch (phase.trans hp).symm.trans e
      · exact nomatch phase.symm.trans e
  · rw [pressureResult, pressurePhase_release v hp] at *
    by_cases h : s.ssq.phase = .release ∧ homeNow s.srs.active.pRest s.msq.table
    · refine .inl fun e => ?_
      rcases phase with phase | phase
      · rcases releaseTest_left h.1 h.2 with left | left <;> exact nomatch (phase.trans left).symm.trans e
      · exact nomatch phase.symm.trans e
    · rw [releaseTest_rests (not_and_or.1 h)] at *
      by_cases rel : s.ssq.phase = .release
      · refine .inr ?_
        have kept := (overpressureTest_calm v (s := s) (by rw [rel]; nofun) (by rw [rel]; nofun)).2
        have settings : (overpressureTest v s).srs = s.srs := by simp
        rw [kept, settings]
        exact fun home => h ⟨rel, home⟩
      · refine .inl fun e => ?_
        rcases phase with phase | phase
        · exact rel (phase.symm.trans e)
        · exact nomatch phase.symm.trans e

/-! ### The sense condition (R129) -/

theorem senseTest_ssq (s : State) : (senseTest s).ssq = s.ssq := by
  unfold senseTest
  by_cases h : senseHolds s.msq.table = s.msq.sense
  · exact congrArg State.ssq (if_pos h)
  · refine (congrArg State.ssq (if_neg h)).trans ?_
    cases senseHolds s.msq.table with
    | true => exact ((addHold_stroke .sense _).1 rfl).1
    | false => exact (removeHold_frame .sense _).2.2.1

theorem senseTest_msq (s : State) : (senseTest s).msq = { s.msq with sense := senseNow s.msq.table } := by
  rw [← senseHolds_eq]
  unfold senseTest
  by_cases h : senseHolds s.msq.table = s.msq.sense
  · refine (congrArg State.msq (if_pos h)).trans ?_
    rw [h]
  · refine (congrArg State.msq (if_neg h)).trans ?_
    cases senseHolds s.msq.table with
    | true => exact ((addHold_stroke .sense _).1 rfl).2
    | false => exact (removeHold_frame .sense _).2.2.2.1

/-- The hold cause SENSE follows a change of the condition, and no other cause changes (R129, R137). -/
theorem senseTest_causes (s : State) : (senseTest s).mct.safe = s.mct.safe ∧
    (senseNow s.msq.table ≠ s.msq.sense → (senseTest s).mct.hold.sense = senseNow s.msq.table) := by
  rw [← senseHolds_eq]
  unfold senseTest
  by_cases h : senseHolds s.msq.table = s.msq.sense
  · rw [show ∀ a b : State, (if senseHolds s.msq.table = s.msq.sense then a else b) = a from fun a b => if_pos h]
    exact ⟨rfl, fun change => absurd h change⟩
  · rw [show ∀ a b : State, (if senseHolds s.msq.table = s.msq.sense then a else b) = b from fun a b => if_neg h]
    generalize senseHolds s.msq.table = on
    cases on with
    | true =>
      have causes := addHold_causes .sense (s.setMsq { s.msq with sense := true })
      exact ⟨by rw [if_pos rfl, causes.2.2.1]; rfl, fun _ => by rw [if_pos rfl, causes.1]; rfl⟩
    | false =>
      obtain ⟨b, mct⟩ := removeHold_mct .sense (s.setMsq { s.msq with sense := false })
      exact ⟨by rw [if_neg Bool.false_ne_true, mct]; rfl, fun _ => by rw [if_neg Bool.false_ne_true, mct]; rfl⟩

/-! ### The announcements of a conversion (R120, R130) -/

/-- What MSQ keeps through a conversion's announcements: the table and the scan, and a chain in flight; a trigger that they fire may
begin a chain where none is in flight (R122, R125). -/
structure ScanKept (m n : Msq) : Prop where
  table : n.table = m.table
  scan : n.scan = m.scan
  pass : n.passDone = m.passDone
  chain : m.chain ≠ none → n.chain = m.chain
  opened : m.chain = none → ∀ ch, n.chain = some ch → ch.done = []

theorem ScanKept.refl (m : Msq) : ScanKept m m :=
  ⟨rfl, rfl, rfl, fun _ => rfl, fun h _ e => nomatch h.symm.trans e⟩

theorem ScanKept.trans {a b c : Msq} (h : ScanKept a b) (k : ScanKept b c) : ScanKept a c where
  table := k.table.trans h.table
  scan := k.scan.trans h.scan
  pass := k.pass.trans h.pass
  chain ha := (k.chain (by rw [h.chain ha]; exact ha)).trans (h.chain ha)
  opened ha ch e := by
    by_cases hb : b.chain = none
    · exact k.opened hb ch e
    · exact h.opened ha ch ((k.chain hb).symm.trans e)

theorem ScanKept.triggered (tag : Tag) (m : Msq) : ScanKept m (Machine.triggered tag m) := by
  by_cases hc : m.chain = none
  · rw [triggered_idle hc]
    exact ⟨rfl, rfl, rfl, fun h => absurd hc h, fun _ ch e => by cases e; rfl⟩
  · by_cases hp : m.pendingTrigger = none
    · rw [triggered_pending hc hp]
      exact ⟨rfl, rfl, rfl, fun _ => rfl, fun h => absurd h hc⟩
    · rw [triggered_lost hc hp]
      exact ⟨rfl, rfl, rfl, fun _ => rfl, fun h => absurd h hc⟩

theorem ScanKept.of_eq {m n : Msq} (h : n = m) : ScanKept m n := h ▸ .refl m

theorem releaseTest_scanKept (s : State) : ScanKept s.msq (releaseTest s).msq := by
  rcases releaseTest_msq s with same | ⟨-, -, fired⟩
  · exact .of_eq same
  · rw [fired]; exact .triggered .finish s.msq

theorem jackTest_scanKept (s : State) : ScanKept s.msq (jackTest s).msq := by
  by_cases lift : s.ssq.phase = .lift
  · rw [jackTest_lift lift]
    exact .of_eq (by simp)
  · rw [jackTest_release lift]
    exact releaseTest_scanKept s

theorem pressureResult_scanKept (v : Int) (s : State) : ScanKept s.msq (pressureResult v s).msq := by
  have first : ScanKept s.msq (pressurePhase v s).msq := by
    rcases pressurePhase_msq v s with same | ⟨-, -, fired⟩
    · exact .of_eq same
    · rw [fired]; exact .triggered .finish s.msq
  refine first.trans ?_
  rw [pressureResult]
  rcases overpressureTest_msq v (pressurePhase v s) with same | ⟨-, -, -, cut⟩
  · exact .of_eq same
  · rw [cut]
    exact ⟨rfl, rfl, rfl, fun _ => rfl, fun h ch e => nomatch h.symm.trans e⟩

theorem senseTest_scanKept (s : State) : ScanKept s.msq (senseTest s).msq := by
  rw [senseTest_msq]
  exact ⟨rfl, rfl, rfl, fun _ => rfl, fun h ch e => nomatch h.symm.trans e⟩

/-- SSQ's own tests of a jack's or PRES's conversion, made once (R69, R70, R73, R79). -/
def strokeReaders (c : Channel) (raw : Nat) (e : ChanEntry) (s : State) : State :=
  if announcesGood c raw e = true then
    if c = .pres then pressureResult (scaledValue c raw) s else jackTest s
  else if (entryAfter c raw e).state ≠ e.state then
    if c = .pres then releaseTest s else jackTest s
  else s

/-- A jack's or PRES's conversion brings SSQ's tests, and at a change of state the sense condition's (R130). -/
theorem announce_stroke {c : Channel} (h : isJackOrPres c = true) (raw : Nat) (e : ChanEntry) (s : State) :
    announce c raw e s =
      if (entryAfter c raw e).state ≠ e.state then senseTest (strokeReaders c raw e s) else strokeReaders c raw e s := by
  have jack (j : Channel) (result : ∀ v u, announceResult j v u = jackTest u)
      (change : ∀ u, announceChange j u = senseTest (jackTest u)) (other : j ≠ .pres) :
      announce j raw e s =
        if (entryAfter j raw e).state ≠ e.state then senseTest (strokeReaders j raw e s) else strokeReaders j raw e s := by
    simp only [announce, strokeReaders, result, change, if_neg other]
    by_cases good : announcesGood j raw e = true <;> by_cases changes : (entryAfter j raw e).state ≠ e.state <;>
      simp [good, changes, jackTest_twice]
  cases c with
  | j1 => exact jack .j1 (fun _ _ => rfl) (fun _ => rfl) nofun
  | j2 => exact jack .j2 (fun _ _ => rfl) (fun _ => rfl) nofun
  | j3 => exact jack .j3 (fun _ _ => rfl) (fun _ => rfl) nofun
  | j4 => exact jack .j4 (fun _ _ => rfl) (fun _ => rfl) nofun
  | pres =>
    simp only [announce, strokeReaders, announceResult, announceChange, if_true]
    by_cases good : announcesGood .pres raw e = true <;> by_cases changes : (entryAfter .pres raw e).state ≠ e.state <;>
      simp [good, changes, releaseTest_pressureResult]
  | _ => exact absurd h (by decide)

theorem strokeReaders_scanKept (c : Channel) (raw : Nat) (e : ChanEntry) (s : State) :
    ScanKept s.msq (strokeReaders c raw e s).msq := by
  unfold strokeReaders
  (repeat' split)
  · exact pressureResult_scanKept _ s
  · exact jackTest_scanKept s
  · exact releaseTest_scanKept s
  · exact jackTest_scanKept s
  · exact .refl _

/-- The conversions that no block follows (R130). -/
theorem announce_unread {c : Channel} (h : isJackOrPres c = false) (fill : c ≠ .fill) (raw : Nat) (e : ChanEntry) (s : State) :
    announce c raw e s = s := by
  have result : announceResult c (scaledValue c raw) s = s := (announceResult_spec (fun h => absurd h fill)).2.2.2 h fill
  have change : announceChange c s = s := (announceChange_spec c s).2.2.2 h fill
  simp only [announce, result, ite_self, change]

theorem announce_fill (raw : Nat) (e : ChanEntry) (s : State) : (announce .fill raw e s).ssq = s.ssq ∧
    (announce .fill raw e s).msq = s.msq := by
  have result : (announceResult .fill (scaledValue .fill raw) s).ssq = s.ssq ∧
      (announceResult .fill (scaledValue .fill raw) s).msq = s.msq := by simp [announceResult, fillResult]
  have change (u : State) : (announceChange .fill u).ssq = u.ssq ∧ (announceChange .fill u).msq = u.msq := by
    simp [announceChange]
  simp only [announce]
  (repeat' split) <;> simp [result, change]

theorem announce_scanKept (c : Channel) (raw : Nat) (e : ChanEntry) (s : State) : ScanKept s.msq (announce c raw e s).msq := by
  by_cases stroke : isJackOrPres c = true
  · rw [announce_stroke stroke]
    split
    · exact (strokeReaders_scanKept c raw e s).trans (senseTest_scanKept _)
    · exact strokeReaders_scanKept c raw e s
  · by_cases fill : c = .fill
    · subst fill
      exact .of_eq (announce_fill raw e s).2
    · rw [announce_unread (Bool.not_eq_true _ ▸ stroke) fill]
      exact .refl _

/-- A conversion that announces nothing has no effect beyond MSQ (R120). -/
theorem announce_silent {c : Channel} {raw : Nat} {e : ChanEntry} (h : ¬ Announced c raw e) (s : State) : announce c raw e s = s := by
  obtain ⟨good, change⟩ := not_or.1 h
  rw [announce, if_neg good, if_neg change]

end Sys2Proof.Machine
end

section
/-! What a conversion leaves (R69, R70, R73, R74, R79, R116 to R130). -/

namespace Sys2Proof.Machine

/-! ### A completed conversion: its announcements, then the chain's end (R120, R123 to R125) -/

/-- The state after a conversion's announcements, before a chain's end is taken. -/
def announced (raw : Nat) (s : State) : State :=
  announce (channelInFlight s.msq) raw (entryOf s.msq.table (channelInFlight s.msq)) (converted raw s)

theorem announced_scanKept (raw : Nat) (s : State) : ScanKept (convertMsq raw s.msq) (announced raw s).msq :=
  announce_scanKept _ raw _ (converted raw s)

theorem announced_chain {raw : Nat} {s : State} {ch : Chain} (hc : s.msq.chain = some ch) : (announced raw s).msq.chain =
    some { ch with
      done := ch.done ++ [sampleElem (channelInFlight s.msq) raw (entryOf s.msq.table (channelInFlight s.msq))] } := by
  have moved : (convertMsq raw s.msq).chain = _ := congrArg Msq.chain (convertMsq_chain raw hc)
  rw [(announced_scanKept raw s).chain (by rw [moved]; nofun), moved]

/-- Before a chain's fifth conversion the announcements are all. -/
theorem completeConversion_open {raw : Nat} {s : State} (h : ∀ ch, s.msq.chain = some ch → ch.done.length < 4) :
    completeConversion raw s = announced raw s := by
  refine finishChain_open (s := announced raw s) fun after e => ?_
  cases hc : s.msq.chain with
  | none =>
    have scanning : (convertMsq raw s.msq).chain = none := by rw [convertMsq_scan raw hc]; exact hc
    rw [(announced_scanKept raw s).opened scanning after e]
    decide
  | some ch =>
    rw [announced_chain hc] at e
    cases e
    have := h ch hc
    rw [List.length_append, List.length_singleton]
    omega

/-- The sample set of a chain whose last conversion is this one of PRES (R123). -/
def chainSample (raw : Nat) (s : State) (ch : Chain) : Sample :=
  sampleOf (ch.done ++ [sampleElem .pres raw s.msq.table.pres])

theorem completeConversion_full {raw : Nat} {s : State} {ch : Chain} (hc : s.msq.chain = some ch) (full : 4 ≤ ch.done.length) :
    completeConversion raw s = (deliverSample ch.tag (chainSample raw s ch) (announced raw s)).setMsq
      { (announced raw s).msq with
        chain := (announced raw s).msq.pendingTrigger.map fun tag => { tag := tag, done := [] }
        pendingTrigger := none } := by
  have chain := announced_chain (raw := raw) hc
  rw [(channelInFlight_chain hc).2.2 full] at chain
  exact finishChain_full chain (by rw [List.length_append, List.length_singleton]; omega)

/-- The table, the scan and the pass of a conversion stay through its announcements and its chain's end. -/
theorem completeConversion_scan (raw : Nat) (s : State) : (completeConversion raw s).msq.table = (convertMsq raw s.msq).table ∧
    (completeConversion raw s).msq.scan = (convertMsq raw s.msq).scan ∧
    (completeConversion raw s).msq.passDone = (convertMsq raw s.msq).passDone := by
  have kept := announced_scanKept raw s
  by_cases h : ∀ ch, s.msq.chain = some ch → ch.done.length < 4
  · rw [completeConversion_open h]
    exact ⟨kept.table, kept.scan, kept.pass⟩
  · push Not at h
    obtain ⟨ch, hc, full⟩ := h
    rw [completeConversion_full hc full]
    exact ⟨kept.table, kept.scan, kept.pass⟩

theorem completeConversion_entry (raw : Nat) (s : State) (d : Channel) : entryOf (completeConversion raw s).msq.table d =
    if d = channelInFlight s.msq then entryAfter d raw (entryOf s.msq.table d) else entryOf s.msq.table d := by
  rw [(completeConversion_scan raw s).1, convertMsq_table, entryOf_setEntry]
  split
  · next h => rw [h]
  · rfl

/-! ### The announcements at SSQ and MCT -/

/-- A jack's or PRES's conversion reaches SSQ by SSQ's own tests; the sense condition adds nothing there (R129). -/
theorem announced_stroke {raw : Nat} {s : State} (h : isJackOrPres (channelInFlight s.msq) = true) :
    ∃ r, r = strokeReaders (channelInFlight s.msq) raw (entryOf s.msq.table (channelInFlight s.msq)) (converted raw s) ∧
      (announced raw s).ssq = r.ssq ∧ (announced raw s).mct.safe = r.mct.safe ∧
      (announced raw s).msq.chain = r.msq.chain ∧ (announced raw s).msq.pendingTrigger = r.msq.pendingTrigger ∧
      (announced raw s).msq.overrun = r.msq.overrun := by
  refine ⟨_, rfl, ?_⟩
  rw [announced, announce_stroke h]
  split
  · rw [senseTest_ssq, senseTest_msq, (senseTest_causes _).1]
    exact ⟨rfl, rfl, rfl, rfl, rfl⟩
  · exact ⟨rfl, rfl, rfl, rfl, rfl⟩

/-- The PRES value of a conversion (R117). -/
theorem scaledValue_pres (raw : Nat) : scaledValue .pres raw = ((raw * 4000 / 4096 : Nat) : Int) := by
  simp [scaledValue, scaleOf]

theorem strokeReaders_good {raw : Nat} {e : ChanEntry} (h : announcesGood .pres raw e = true) (s : State) :
    strokeReaders .pres raw e s = pressureResult ((raw * 4000 / 4096 : Nat) : Int) s := by
  rw [strokeReaders, if_pos h, if_pos rfl, scaledValue_pres]

theorem strokeReaders_jack {c : Channel} (h : isJack c = true) {raw : Nat} {e : ChanEntry} (told : Announced c raw e) (s : State) :
    strokeReaders c raw e s = jackTest s := by
  have other : c ≠ .pres := fun hc => by rw [hc] at h; exact nomatch h
  rw [strokeReaders, if_neg other, if_neg other]
  by_cases good : announcesGood c raw e = true
  · exact if_pos good
  · rw [if_neg good, if_pos (told.resolve_left good)]

theorem strokeReaders_silent {c : Channel} {raw : Nat} {e : ChanEntry} (h : ¬ Announced c raw e) (s : State) :
    strokeReaders c raw e s = s := by
  obtain ⟨good, change⟩ := not_or.1 h
  rw [strokeReaders, if_neg good, if_neg change]

/-- Out of PRESSURIZE and LIFT, SSQ's tests are the return test and the overpressure condition (R73, R79). -/
theorem strokeReaders_ssq {c : Channel} {raw : Nat} {e : ChanEntry} {s : State} (h1 : s.ssq.phase ≠ .pressurize)
    (h2 : s.ssq.phase ≠ .lift) (told : Announced c raw e) : ∃ mark,
    (strokeReaders c raw e s).ssq = { (releaseTest s).ssq with overpressure := mark } ∧
      (strokeReaders c raw e s).msq = (releaseTest s).msq := by
  by_cases pres : c = .pres
  · subst pres
    by_cases good : announcesGood .pres raw e = true
    · rw [strokeReaders_good good, pressureResult, pressurePhase_release _ h1]
      have phase : (releaseTest s).ssq.phase ≠ .pressurize ∧ (releaseTest s).ssq.phase ≠ .lift := by
        by_cases home : s.ssq.phase = .release ∧ homeNow s.srs.active.pRest s.msq.table
        · rcases releaseTest_left home.1 home.2 with left | left <;> rw [left] <;> exact ⟨nofun, nofun⟩
        · rw [releaseTest_rests (not_and_or.1 home)]
          exact ⟨h1, h2⟩
      exact ⟨_, overpressureTest_calm _ phase.1 phase.2⟩
    · rw [strokeReaders, if_neg good, if_pos (told.resolve_left good), if_pos rfl]
      exact ⟨_, rfl, rfl⟩
  · have jack : strokeReaders c raw e s = jackTest s := by
      rw [strokeReaders, if_neg pres, if_neg pres]
      by_cases good : announcesGood c raw e = true
      · exact if_pos good
      · rw [if_neg good, if_pos (told.resolve_left good)]
    rw [jack, jackTest_release h2]
    exact ⟨_, rfl, rfl⟩

/-! ### The stroke in flight through SSQ's tests -/

/-- SETTLE entered with its trigger taken at once or pending (R73, R122, R125). -/
theorem enterSettle_taken {s : State} (update : Stroke → Stroke) (h : s.msq.chain = none ∨ s.msq.pendingTrigger = none) :
    enterSettle update s = (s.setSsq { s.ssq with phase := .settle, releaseOn := false, stroke := s.ssq.stroke.map update }).setMsq
      (triggered .finish s.msq) := fireTrigger_taken .finish h

theorem releaseTest_stroke {s : State} (h : s.ssq.phase ≠ .release ∨ s.msq.pendingTrigger = none) (hs : s.ssq.stroke ≠ none) :
    (releaseTest s).ssq.stroke ≠ none := by
  by_cases home : s.ssq.phase = .release ∧ homeNow s.srs.active.pRest s.msq.table
  · have waits := h.resolve_left (not_not.2 home.1)
    rw [releaseTest_fires home.1 home.2, enterSettle_taken _ (.inr waits)]
    exact Option.map_eq_none_iff.not.2 hs
  · rw [releaseTest_rests (not_and_or.1 home)]
    exact hs

theorem liftTest_stroke {s : State} (hs : s.ssq.stroke ≠ none) : (liftTest s).ssq.stroke ≠ none := by
  unfold liftTest
  (repeat' split) <;> simp_all [leaveLift, liftOff]

theorem enterLift_stroke {s : State} (hs : s.ssq.stroke ≠ none) : (enterLift s).ssq.stroke ≠ none :=
  liftTest_stroke (Option.map_eq_none_iff.not.2 hs)

theorem overpressureTest_stroke {v : Int} {s : State} (hs : s.ssq.stroke ≠ none) : (overpressureTest v s).ssq.stroke ≠ none := by
  rcases overpressureTest_ssq v s with same | ⟨-, cut⟩
  · rw [same]; exact hs
  · rw [cut, cutLeaves]
    (repeat' split)
    · exact Option.map_eq_none_iff.not.2 hs
    · exact Option.map_eq_none_iff.not.2 hs
    · exact hs

theorem strokeReaders_stroke (c : Channel) (raw : Nat) (e : ChanEntry) {s : State}
    (h : s.ssq.phase ≠ .release ∨ s.msq.pendingTrigger = none) (hs : s.ssq.stroke ≠ none) :
    (strokeReaders c raw e s).ssq.stroke ≠ none := by
  have jack : (jackTest s).ssq.stroke ≠ none := by
    by_cases lift : s.ssq.phase = .lift
    · rw [jackTest_lift lift]; exact liftTest_stroke hs
    · rw [jackTest_release lift]; exact releaseTest_stroke h hs
  have pressure (v : Int) : (pressurePhase v s).ssq.stroke ≠ none := by
    by_cases hp : s.ssq.phase = .pressurize
    · by_cases hv : s.srs.active.pLift ≤ v
      · rw [pressurePhase_enters hp hv]; exact enterLift_stroke hs
      · rw [pressurePhase_stays hp (Int.not_le.1 hv)]; exact hs
    · rw [pressurePhase_release v hp]; exact releaseTest_stroke h hs
  unfold strokeReaders
  (repeat' split)
  · exact overpressureTest_stroke (pressure _)
  · exact jack
  · exact releaseTest_stroke h hs
  · exact jack
  · exact hs

/-- Where nothing ends RELEASE and no cut comes in PRESSURIZE, the pending trigger stays (R122, R127). -/
theorem strokeReaders_pending {raw : Nat} {e : ChanEntry} {s : State}
    (rests : s.ssq.phase ≠ .release ∨ ¬ homeNow s.srs.active.pRest s.msq.table)
    (uncut : s.ssq.phase = .pressurize → s.msq.pendingTrigger = some .start → announcesGood .pres raw e = true →
      ((raw * 4000 / 4096 : Nat) : Int) ≤ s.srs.active.pOver) :
    (strokeReaders .pres raw e s).msq.pendingTrigger = s.msq.pendingTrigger := by
  by_cases good : announcesGood .pres raw e = true
  · rw [strokeReaders_good good, pressureResult]
    generalize ((raw * 4000 / 4096 : Nat) : Int) = v at *
    have phase : (pressurePhase v s).msq = s.msq := (pressurePhase_msq v s).resolve_right fun ⟨hp, home, _⟩ =>
      rests.elim (· hp) (· home)
    rcases overpressureTest_msq v (pressurePhase v s) with same | ⟨high, hp, waits, -⟩
    · rw [same, phase]
    · rw [phase] at waits
      rw [pressurePhase_pOver] at high
      have first : s.ssq.phase = .pressurize := by
        by_contra other
        rw [pressurePhase_release v other, releaseTest_rests rests] at hp
        exact other hp
      exact absurd (uncut first waits good) (Int.not_le.2 high)
  · rw [strokeReaders, if_neg good, if_pos rfl, releaseTest_rests rests, ite_self]

/-! ### The completion of a stroke keeps the overpressure condition and the causes (R74, R77) -/

theorem laserCorrect_mark (s : State) : (laserCorrect s).ssq.overpressure = s.ssq.overpressure := by
  simp only [laserCorrect]
  (repeat' split) <;> simp [frameShiftTo]
  split <;> simp

theorem completeSettle_mark (st : Stroke) {s : State} (h1 : s.ssq.phase ≠ .pressurize) (h2 : s.ssq.phase ≠ .lift) :
    (completeSettle st s).ssq.overpressure = s.ssq.overpressure := by
  have laser (st : Stroke) (u : State) : (settleLaser st u).2.ssq.overpressure = u.ssq.overpressure := by
    rw [settleLaser]
    split
    · exact laserCorrect_mark u
    · rfl
  simp only [completeSettle, requestLevel, State.setMct_ssq, State.setSsq_ssq, State.setLif_ssq]
  rw [(reportOutcome_calm _ (by simpa using h1) (by simpa using h2)).1, State.setSsq_ssq, laser]
  rfl

theorem completeSettle_causes (st : Stroke) (s : State) : (completeSettle st s).mct.hold = s.mct.hold ∧
    ((completeSettle st s).mct.safe = s.mct.safe ∨ (completeSettle st s).mct.safe = { s.mct.safe with strokeRepeat := true }) := by
  have report (st : Stroke) (u : State) : (reportOutcome st u).mct.hold = u.mct.hold ∧
      ((reportOutcome st u).mct.safe = u.mct.safe ∨ (reportOutcome st u).mct.safe = { u.mct.safe with strokeRepeat := true }) := by
    by_cases kind : st.kind = .calibration
    · rw [reportOutcome_calibration kind]; exact ⟨rfl, .inl rfl⟩
    · rw [reportOutcome_stroke kind]
      split
      · obtain ⟨safe, hold, -⟩ := addSafe_mct .strokeRepeat (windowJoined st.faults.length u)
        exact ⟨hold, .inr safe⟩
      · exact ⟨rfl, .inl rfl⟩
  have before (st : Stroke) (d : Int) (u : State) (n : Nat) :
      ((settleLaser st (climbBy d u)).2.setSsq { (settleLaser st (climbBy d u)).2.ssq with strokeCount := n }).mct = u.mct := by
    simp
  simp only [completeSettle, requestLevel, State.setMct_mct, State.setSsq_mct, State.setLif_mct]
  have k := report (settleLaser st (climbBy (climbedDistance s.srs.active.takeUp st) s)).1
    ((settleLaser st (climbBy (climbedDistance s.srs.active.takeUp st) s)).2.setSsq
      { (settleLaser st (climbBy (climbedDistance s.srs.active.takeUp st) s)).2.ssq with
        strokeCount := ((settleLaser st (climbBy (climbedDistance s.srs.active.takeUp st) s)).2.ssq.strokeCount + 1) % 256 })
  rw [before] at k
  exact k

/-- A sample set delivered keeps the overpressure condition and the causes, but for STROKE_REPEAT. -/
theorem deliverSample_causes (tag : Tag) (p : Sample) (s : State) :
    (deliverSample tag p s).ssq.overpressure = s.ssq.overpressure ∧ (deliverSample tag p s).mct.hold = s.mct.hold ∧
    ((deliverSample tag p s).mct.safe = s.mct.safe ∨
      (deliverSample tag p s).mct.safe = { s.mct.safe with strokeRepeat := true }) := by
  by_cases h : tag = .finish ∧ s.ssq.phase = .settle
  · obtain ⟨rfl, hp⟩ := h
    cases hs : s.ssq.stroke with
    | none => rw [deliverSample, hs]; exact ⟨rfl, rfl, .inl rfl⟩
    | some st =>
      rw [deliverSample_completes hp hs]
      generalize hu : s.setSsq { s.ssq with stroke := some { st with endSample := some p } } = u
      have phase : u.ssq.phase = .settle := by rw [← hu]; exact hp
      have mark : u.ssq.overpressure = s.ssq.overpressure ∧ u.mct = s.mct := by rw [← hu]; exact ⟨rfl, rfl⟩
      rw [completeSettle_mark _ (by rw [phase]; nofun) (by rw [phase]; nofun), mark.1, ← mark.2]
      exact ⟨rfl, completeSettle_causes _ u⟩
  · rw [deliverSample_stores h]
    exact ⟨rfl, rfl, .inl rfl⟩

/-- So does the end of a chain (R123 to R125). -/
theorem completeConversion_causes (raw : Nat) (s : State) :
    (completeConversion raw s).ssq.overpressure = (announced raw s).ssq.overpressure ∧
    (completeConversion raw s).mct.hold = (announced raw s).mct.hold ∧
    ((completeConversion raw s).mct.safe = (announced raw s).mct.safe ∨
      (completeConversion raw s).mct.safe = { (announced raw s).mct.safe with strokeRepeat := true }) ∧
    (completeConversion raw s).msq.sense = (announced raw s).msq.sense := by
  by_cases h : ∀ ch, s.msq.chain = some ch → ch.done.length < 4
  · rw [completeConversion_open h]
    exact ⟨rfl, rfl, .inl rfl, rfl⟩
  · push Not at h
    obtain ⟨ch, hc, full⟩ := h
    rw [completeConversion_full hc full]
    obtain ⟨mark, hold, safe⟩ := deliverSample_causes ch.tag (chainSample raw s ch) (announced raw s)
    exact ⟨mark, hold, safe, rfl⟩

end Sys2Proof.Machine
end

section
/-! The conversions' clauses at each reader (R69, R70, R73, R74, R79, R101, R108, R109, R116 to R130). -/

namespace Sys2Proof.Machine

/-! ### The announcement itself (R117, R119, R120) -/

theorem announcesGood_iff (c : Channel) (raw : Nat) (e : ChanEntry) : announcesGood c raw e = true ↔
    rawInRange c raw = true ∧ e.state ≠ .absent ∧ (entryAfter c raw e).state = .good := by
  simp only [announcesGood, Bool.and_eq_true, decide_eq_true_eq, and_assoc]

/-- A good result's value is the value of its raw reading (R117, R119). -/
theorem announcesGood_value {c : Channel} {raw : Nat} {e : ChanEntry} (h : announcesGood c raw e = true) :
    (entryAfter c raw e).value = some (scaledValue c raw) := by
  obtain ⟨range, present, good⟩ := (announcesGood_iff c raw e).1 h
  have after : entryAfter c raw e = entryIn (scaledValue c raw) e := by
    rw [entryAfter, if_neg fun h => present h.2, if_pos range]
  rw [after] at good ⊢
  cases hs : e.state with
  | faulted =>
    rw [entryIn, hs] at good ⊢
    by_cases few : e.goodCount + 1 < 3
    · simp only [few, if_true] at good
      exact nomatch good
    · simp only [few, if_false]
  | _ => rw [entryIn, hs]

/-- The state a conversion leaves before its announcements, in terms of what MSQ keeps of it (R116, R122, R123). -/
theorem converted_eq (raw : Nat) (s : State) : converted raw s = s.setMsq
    { s.msq with
      table := (completeConversion raw s).msq.table, scan := (completeConversion raw s).msq.scan
      passDone := (completeConversion raw s).msq.passDone
      chain := s.msq.chain.map fun ch => { ch with
        done := ch.done ++ [sampleElem (channelInFlight s.msq) raw (entryOf s.msq.table (channelInFlight s.msq))] } } := by
  obtain ⟨table, scan, pass⟩ := completeConversion_scan raw s
  rw [table, scan, pass, converted]
  cases hc : s.msq.chain with
  | none =>
    rw [convertMsq_scan raw hc, Option.map_none]
    exact congrArg s.setMsq (by rw [← hc])
  | some ch => rw [convertMsq_chain raw hc, Option.map_some]

theorem converted_scan {raw : Nat} {s : State} (hc : s.msq.chain = none) : converted raw s = s.setMsq
    { s.msq with
      table := (completeConversion raw s).msq.table, scan := nextChannel s.msq.scan
      passDone := (completeConversion raw s).msq.passDone } := by
  have e := converted_eq raw s
  rw [hc, Option.map_none, (completeConversion_scan raw s).2.1, convertMsq_scan raw hc] at e
  rw [e]
  exact congrArg s.setMsq (by rw [← hc])

theorem converted_table (raw : Nat) (s : State) : (converted raw s).msq.table = (completeConversion raw s).msq.table :=
  (completeConversion_scan raw s).1.symm

/-! ### PRES at SSQ (R69, R70, R79, R123) -/

/-- With no END sample to complete SETTLE, a conversion of PRES leaves SSQ with the chain's set stored, where it is the last. -/
theorem completeConversion_stored {raw : Nat} {s : State}
    (h : ∀ ch, s.msq.chain = some ch → ¬ (ch.tag = .finish ∧ (announced raw s).ssq.phase = .settle)) :
    (completeConversion raw s).ssq = chainStored raw s.msq (announced raw s).ssq := by
  unfold chainStored
  cases hc : s.msq.chain with
  | none => exact congrArg State.ssq (completeConversion_open fun ch e => nomatch hc.symm.trans e)
  | some ch =>
    by_cases few : ch.done.length < 4
    · simp only [few, if_true]
      exact congrArg State.ssq (completeConversion_open fun d e => Option.some.inj (hc.symm.trans e) ▸ few)
    · simp only [few, if_false]
      rw [completeConversion_full hc (Nat.not_lt.1 few), deliverSample_stores (h ch hc)]
      rfl

/-- LIFT's tests do not look at the overpressure condition (R70, R79). -/
theorem liftTested_marked {travels : List Int} {st : Stroke} {a b : State} {q : Ssq} {mark : Bool}
    (h : liftTested travels st a q) (settings : b.srs = a.srs) (now : b.nowMs = a.nowMs)
    (ssq : b.ssq = { a.ssq with overpressure := mark }) : liftTested travels st b { q with overpressure := mark } := by
  have ended (st : Stroke) : liftEnded st b = { liftEnded st a with overpressure := mark } := by
    simp only [liftEnded, liftElapsed, ssq, now, settings]
  obtain ⟨few, many⟩ := h
  unfold liftTested
  simp only [ended, settings, ssq]
  refine ⟨fun n => by rw [few n], fun n => ?_⟩
  obtain ⟨skewed, level⟩ := many n
  refine ⟨fun k => by rw [skewed k], fun k => ?_⟩
  obtain ⟨target, none⟩ := level k
  exact ⟨fun S hS hk => by rw [target S hS hk], fun hk => by rw [none hk]⟩

theorem announced_good {raw : Nat} {s : State} (pres : channelInFlight s.msq = .pres)
    (good : announcesGood .pres raw s.msq.table.pres = true) :
    (announced raw s).ssq = (pressureResult ((raw * 4000 / 4096 : Nat) : Int) (converted raw s)).ssq ∧
    (announced raw s).mct.safe = (pressureResult ((raw * 4000 / 4096 : Nat) : Int) (converted raw s)).mct.safe := by
  obtain ⟨r, hr, ssq, safe, -⟩ := announced_stroke (raw := raw) (s := s) (by rw [pres]; rfl)
  rw [pres, strokeReaders_good (show announcesGood .pres raw (entryOf s.msq.table .pres) = true from good)] at hr
  rw [ssq, safe, hr]
  exact ⟨rfl, rfl⟩

/-- The overpressure condition and its SAFE cause after a good PRES result (R79, R137). -/
theorem completeConversion_overpressure {raw : Nat} {s : State} (pres : channelInFlight s.msq = .pres)
    (good : announcesGood .pres raw s.msq.table.pres = true) :
    (completeConversion raw s).ssq.overpressure = decide (s.srs.active.pOver < ((raw * 4000 / 4096 : Nat) : Int)) ∧
    (s.srs.active.pOver < ((raw * 4000 / 4096 : Nat) : Int) → (completeConversion raw s).mct.safe.overpressure = true ∧
      modeOf (completeConversion raw s).mct = .safe) := by
  obtain ⟨mark, -, causes, -⟩ := completeConversion_causes raw s
  obtain ⟨ssq, safe⟩ := announced_good pres good
  generalize ((raw * 4000 / 4096 : Nat) : Int) = v at *
  have limit : (pressurePhase v (converted raw s)).srs.active.pOver = s.srs.active.pOver := pressurePhase_pOver v _
  constructor
  · rw [mark, ssq, pressureResult, overpressureTest_mark, limit]
  · intro high
    have cause : (announced raw s).mct.safe.overpressure = true := by
      rw [safe, pressureResult, overpressureTest_high (by rw [limit]; exact high), (addSafe_mct .overpressure _).1]
      rfl
    have kept : (completeConversion raw s).mct.safe.overpressure = true := by
      rcases causes with same | more
      · rw [same]; exact cause
      · rw [more]; exact cause
    refine ⟨kept, (modeOf_safe_iff _).2 fun h => ?_⟩
    rw [h] at kept
    exact nomatch kept

/-- A good PRES result at or below P_over in PRESSURIZE: below P_lift nothing but the mark, from P_lift on the entry to LIFT (R69,
R70). -/
theorem completeConversion_pressurize {raw : Nat} {s : State} {v : Int} (hv : v = ((raw * 4000 / 4096 : Nat) : Int))
    (pres : channelInFlight s.msq = .pres) (good : announcesGood .pres raw s.msq.table.pres = true)
    (phase : s.ssq.phase = .pressurize) (low : v ≤ s.srs.active.pOver) :
    (v < s.srs.active.pLift →
      (completeConversion raw s).ssq = chainStored raw s.msq { s.ssq with overpressure := false }) ∧
    (s.srs.active.pLift ≤ v → ∀ st begun q, s.ssq.stroke = some st → begun = { st with liftEntry := some s.nowMs } →
      q = { s.ssq with
            phase := .lift
            dutyWritten := if s.ssq.dutyInForce = 100 then s.ssq.dutyWritten else 100
            stroke := some begun
            overpressure := false } →
        (st.startSample = none → (completeConversion raw s).ssq = chainStored raw s.msq q) ∧
          ∀ a, st.startSample = some a →
            ∃ r, liftTested (travelsNow a (completeConversion raw s).msq.table) begun (s.setSsq q) r ∧
              (completeConversion raw s).ssq = chainStored raw s.msq r) := by
  obtain ⟨ssq, -⟩ := announced_good pres good
  rw [← hv, pressureResult, overpressureTest_low (v := v) (by rw [pressurePhase_pOver]; exact low)] at ssq
  have phase' : (converted raw s).ssq.phase = .pressurize := phase
  constructor
  · intro below
    rw [pressurePhase_stays phase' below] at ssq
    rw [completeConversion_stored (fun _ _ h => by rw [ssq] at h; exact nomatch phase.symm.trans h.2), ssq]
    rfl
  · rintro above st begun q hs hb rfl
    rw [pressurePhase_enters phase' above] at ssq
    have stored : (completeConversion raw s).ssq = chainStored raw s.msq (announced raw s).ssq := by
      refine completeConversion_stored fun _ _ h => ?_
      rw [ssq] at h
      rcases enterLift_phase (converted raw s) with e | e <;> exact nomatch e.symm.trans h.2
    obtain ⟨early, tested⟩ := enterLift_spec (converted raw s) st begun _ hs hb rfl
    refine ⟨fun h0 => ?_, fun a ha => ?_⟩
    · rw [stored, ssq, early h0]
      rfl
    · obtain ⟨r, lifts, e⟩ := tested a ha
      rw [converted_table] at lifts
      exact ⟨{ r with overpressure := false }, liftTested_marked lifts rfl rfl rfl, by rw [stored, ssq, e]; rfl⟩

end Sys2Proof.Machine
end

section
/-! The end of a chain, the return from RELEASE and FILL's readers, and the conversion as a whole (R73, R74, R101, R116 to R130). -/

namespace Sys2Proof.Machine

/-! ### The last conversion of a chain (R123 to R125) -/

section LastOfChain

variable {raw : Nat} {s : State} {ch : Chain}

/-- What SSQ's tests have made by the last conversion of a chain. -/
theorem announced_last (hc : s.msq.chain = some ch) (full : ch.done.length = 4) :
    ∃ r, r = strokeReaders .pres raw s.msq.table.pres (converted raw s) ∧
      (announced raw s).ssq = r.ssq ∧ (announced raw s).msq.pendingTrigger = r.msq.pendingTrigger := by
  obtain ⟨told, -, pres⟩ := channelInFlight_chain hc
  obtain ⟨r, hr, ssq, -, -, pending, -⟩ := announced_stroke (raw := raw) told
  rw [pres full.ge] at hr
  exact ⟨r, hr, ssq, pending⟩

theorem converted_pending (raw : Nat) (s : State) : (converted raw s).msq.pendingTrigger = s.msq.pendingTrigger :=
  convertMsq_pending raw s.msq

/-- A START or TOP chain's sample set is in the stroke in flight (R72, R123). -/
theorem completeConversion_sample (hc : s.msq.chain = some ch) (full : ch.done.length = 4) (ht : ch.tag ≠ .finish)
    (h : s.ssq.phase ≠ .release ∨ s.msq.pendingTrigger = none) (hs : s.ssq.stroke ≠ none) :
    (ch.tag = .start → (completeConversion raw s).ssq.stroke.map Stroke.startSample = some (some (chainSample raw s ch))) ∧
      (ch.tag = .top → (completeConversion raw s).ssq.stroke.map Stroke.topSample = some (some (chainSample raw s ch))) := by
  obtain ⟨r, hr, ssq, -⟩ := announced_last (raw := raw) hc full
  have stroke : (announced raw s).ssq.stroke ≠ none := by
    rw [ssq, hr]
    exact strokeReaders_stroke .pres raw _ (s := converted raw s) (by rw [converted_pending]; exact h) hs
  obtain ⟨st, hst⟩ := Option.ne_none_iff_exists'.1 stroke
  rw [completeConversion_full hc full.ge, deliverSample_stores fun k => ht k.1]
  refine ⟨fun tag => ?_, fun tag => ?_⟩ <;>
    simp only [State.setMsq_ssq, State.setSsq_ssq, sampleStored, hst, tag, Option.map_some]

/-- The pending trigger's chain starts, or the scan resumes (R124, R125). -/
theorem completeConversion_next (hc : s.msq.chain = some ch) (full : ch.done.length = 4) :
    (completeConversion raw s).msq.chain =
      (announced raw s).msq.pendingTrigger.map (fun tag => { tag := tag, done := [] }) ∧
    (completeConversion raw s).msq.pendingTrigger = none := by
  rw [completeConversion_full hc full.ge]
  exact ⟨rfl, rfl⟩

/-- A chain's last conversion that finds the jacks home in RELEASE fires the END trigger, whose chain then starts (R73, R125). -/
theorem completeConversion_returns (hc : s.msq.chain = some ch) (full : ch.done.length = 4) (ht : ch.tag ≠ .finish)
    (waits : s.msq.pendingTrigger = none) (phase : s.ssq.phase = .release) (told : Announced .pres raw s.msq.table.pres)
    (home : homeNow s.srs.active.pRest (completeConversion raw s).msq.table) :
    (completeConversion raw s).ssq.phase = .settle ∧
    (completeConversion raw s).msq.chain = some { tag := .finish, done := [] } ∧
    (completeConversion raw s).msq.pendingTrigger = none := by
  obtain ⟨r, hr, ssq, pending⟩ := announced_last (raw := raw) hc full
  have phase' : (converted raw s).ssq.phase = .release := phase
  have waits' : (converted raw s).msq.pendingTrigger = none := (converted_pending raw s).trans waits
  have chain' : (converted raw s).msq.chain ≠ none := by
    rw [show (converted raw s).msq = _ from convertMsq_chain raw hc]
    nofun
  rw [← converted_table] at home
  obtain ⟨mark, tested, msq⟩ := strokeReaders_ssq (c := .pres) (s := converted raw s) (by rw [phase']; nofun)
    (by rw [phase']; nofun) told
  rw [releaseTest_fires phase' home, enterSettle_taken _ (.inr waits')] at tested msq
  rw [triggered_pending chain' waits'] at msq
  obtain ⟨next, none⟩ := completeConversion_next (raw := raw) hc full
  rw [pending, hr, msq] at next
  refine ⟨?_, next, none⟩
  rw [completeConversion_full hc full.ge, deliverSample_stores fun k => ht k.1]
  show (announced raw s).ssq.phase = .settle
  rw [ssq, hr, tested]
  rfl

/-- In SETTLE a conversion of PRES leaves SSQ but for the overpressure condition. -/
theorem announced_settle (hc : s.msq.chain = some ch) (full : ch.done.length = 4) (phase : s.ssq.phase = .settle) :
    ∃ mark, (announced raw s).ssq = { s.ssq with overpressure := mark } ∧
      (announced raw s).msq.pendingTrigger = s.msq.pendingTrigger := by
  obtain ⟨r, hr, ssq, pending⟩ := announced_last (raw := raw) hc full
  have phase' : (converted raw s).ssq.phase = .settle := phase
  rw [ssq, pending, ← converted_pending raw s]
  by_cases told : Announced .pres raw s.msq.table.pres
  · obtain ⟨mark, tested, msq⟩ := strokeReaders_ssq (c := .pres) (s := converted raw s) (by rw [phase']; nofun)
      (by rw [phase']; nofun) told
    rw [releaseTest_rests (.inl (by rw [phase']; nofun))] at tested msq
    exact ⟨mark, hr ▸ tested, by rw [hr, msq]⟩
  · rw [hr, strokeReaders_silent told]
    exact ⟨_, rfl, rfl⟩

/-- The END sample completes the stroke in SETTLE (R74). -/
theorem completeConversion_completes {st : Stroke} (hc : s.msq.chain = some ch) (full : ch.done.length = 4)
    (ht : ch.tag = .finish) (phase : s.ssq.phase = .settle) (hs : s.ssq.stroke = some st) :
    (completeConversion raw s).ssq.phase = .idle ∧ (completeConversion raw s).ssq.stroke = none ∧
    (completeConversion raw s).ssq.strokeCount = (s.ssq.strokeCount + 1) % 256 ∧
    (completeConversion raw s).msq.chain = s.msq.pendingTrigger.map (fun tag => { tag := tag, done := [] }) ∧
    (completeConversion raw s).msq.pendingTrigger = none ∧
    completeConversion raw s = (completeSettle { st with endSample := some (chainSample raw s ch) }
      ((announced raw s).setSsq { (announced raw s).ssq with
        stroke := some { st with endSample := some (chainSample raw s ch) } })).setMsq (completeConversion raw s).msq := by
  obtain ⟨mark, ssq, pending⟩ := announced_settle (raw := raw) hc full phase
  obtain ⟨next, none⟩ := completeConversion_next (raw := raw) hc full
  rw [pending] at next
  have whole := completeConversion_full (raw := raw) hc full.ge
  rw [ht, deliverSample_completes (by rw [ssq]; exact phase) (by rw [ssq]; exact hs)] at whole
  have settle : ((announced raw s).setSsq { (announced raw s).ssq with
      stroke := some { st with endSample := some (chainSample raw s ch) } }).ssq.phase = .settle := by
    rw [ssq]; exact phase
  obtain ⟨idle, gone, -, count, -⟩ := completeSettle_kept { st with endSample := some (chainSample raw s ch) }
    (s := (announced raw s).setSsq { (announced raw s).ssq with
      stroke := some { st with endSample := some (chainSample raw s ch) } }) (by rw [settle]; nofun) (by rw [settle]; nofun)
  have counted : (announced raw s).ssq.strokeCount = s.ssq.strokeCount := by rw [ssq]
  refine ⟨?_, ?_, ?_, next, none, ?_⟩
  · rw [whole]; exact idle
  · rw [whole]; exact gone
  · rw [whole]; exact count.trans (by rw [← counted]; rfl)
  · rw [whole]
    rfl

end LastOfChain

/-! ### The return from RELEASE before a chain's end (R73, R74, R126) -/

/-- The end of RELEASE (R73, R74, R122, R125, R126). -/
theorem releaseTest_returned {s : State} {st : Stroke} (phase : s.ssq.phase = .release)
    (home : homeNow s.srs.active.pRest s.msq.table) (hs : s.ssq.stroke = some st) : returned st s (releaseTest s) := by
  rw [releaseTest_fires phase home]
  generalize hf : withRelease (elapsedMs s.nowMs (s.ssq.stroke.bind Stroke.releaseEntry) 5000) = f
  obtain ⟨taken, lost⟩ := enterSettle_spec f hs
  refine ⟨fun free => ?_, fun idle => ?_, fun chain waits => ?_, fun chain waits => ?_⟩
  · rw [taken free]
    refine ⟨rfl, rfl, ?_, fun since hr => ?_⟩
    · rcases free with free | free
      · rw [triggered_idle free]; rfl
      · by_cases idle : s.msq.chain = none
        · rw [triggered_idle idle]; rfl
        · rw [triggered_pending idle free]; rfl
    · show some (f st) = _
      rw [← hf, hs]
      simp only [withRelease, elapsedMs, Option.bind_some, hr, Option.getD_some]
  · rw [taken (.inl idle), triggered_idle idle]
    exact ⟨rfl, rfl⟩
  · rw [taken (.inr waits), triggered_pending chain waits]
    rfl
  · rw [lost chain waits _ rfl, triggered_lost chain waits]
    generalize hu : (s.setSsq { s.ssq with
        phase := .settle, releaseOn := false, stroke := some { f st with endSample := some (copyNow s.msq.table) } }).setMsq
      { s.msq with overrun := true } = u
    have settle : u.ssq.phase = .settle ∧ u.ssq.releaseOn = false ∧ u.ssq.strokeCount = s.ssq.strokeCount ∧
        u.msq = { s.msq with overrun := true } := by rw [← hu]; exact ⟨rfl, rfl, rfl, rfl⟩
    obtain ⟨idle, gone, valve, count, msq, -⟩ := completeSettle_kept { f st with endSample := some (copyNow s.msq.table) }
      (s := u) (by rw [settle.1]; nofun) (by rw [settle.1]; nofun)
    rw [msq, settle.2.2.2]
    exact ⟨rfl, rfl, idle, gone, valve.trans settle.2.1, by rw [count, settle.2.2.1]⟩

/-- Before a chain's end, a jack's or PRES's conversion in RELEASE makes the return test (R73). -/
theorem completeConversion_release {raw : Nat} {s : State} {st : Stroke}
    (stroke : isJackOrPres (channelInFlight s.msq) = true) (phase : s.ssq.phase = .release) (hs : s.ssq.stroke = some st)
    (told : Announced (channelInFlight s.msq) raw (entryOf s.msq.table (channelInFlight s.msq)))
    (few : ∀ ch, s.msq.chain = some ch → ch.done.length < 4) :
    (¬ homeNow s.srs.active.pRest (completeConversion raw s).msq.table →
      (completeConversion raw s).ssq.phase = .release ∧ (completeConversion raw s).ssq.releaseOn = s.ssq.releaseOn ∧
        (completeConversion raw s).ssq.stroke = s.ssq.stroke) ∧
    (homeNow s.srs.active.pRest (completeConversion raw s).msq.table → returned st s (completeConversion raw s)) := by
  obtain ⟨r, hr, ssq, -, chain, pending, overrun⟩ := announced_stroke (raw := raw) stroke
  have phase' : (converted raw s).ssq.phase = .release := phase
  obtain ⟨mark, tested, msq⟩ := strokeReaders_ssq (s := converted raw s) (by rw [phase']; nofun) (by rw [phase']; nofun) told
  rw [hr, tested] at ssq
  rw [hr, msq] at chain pending overrun
  rw [← converted_table, completeConversion_open few]
  generalize announced raw s = t at *
  have none_iff : (converted raw s).msq.chain = none ↔ s.msq.chain = none := by
    rw [converted_eq]
    exact Option.map_eq_none_iff
  constructor
  · intro away
    rw [releaseTest_rests (.inr away)] at ssq
    rw [ssq]
    exact ⟨phase, rfl, rfl⟩
  · intro home
    have waits := converted_pending raw s
    have lost : (converted raw s).msq.overrun = s.msq.overrun := by rw [converted_eq]; rfl
    have tests := releaseTest_returned phase' home hs
    generalize hx : converted raw s = x at *
    have now : x.nowMs = s.nowMs ∧ x.ssq = s.ssq := by rw [← hx]; exact ⟨rfl, rfl⟩
    unfold returned at tests ⊢
    rw [ssq, chain, pending, overrun, ← waits, ← lost, ← now.1, ← now.2]
    simp only [ne_eq, ← none_iff]
    exact tests

/-! ### The jacks at SSQ (R70) -/

section Jack

variable {raw : Nat} {s : State}

/-- A jack's conversion is no chain's last. -/
theorem completeConversion_jack (jack : isJack (channelInFlight s.msq) = true) :
    completeConversion raw s = announced raw s :=
  completeConversion_open fun _ hc => (channelInFlight_chain hc).2.1 jack

theorem isJackOrPres_of_jack {c : Channel} (h : isJack c = true) : isJackOrPres c = true := by
  cases c with
  | j1 | j2 | j3 | j4 => rfl
  | _ => exact nomatch h

/-- SSQ tests a jack in LIFT and RELEASE alone (R70, R73). -/
theorem completeConversion_jackElsewhere (jack : isJack (channelInFlight s.msq) = true) (lift : s.ssq.phase ≠ .lift)
    (release : s.ssq.phase ≠ .release) : (completeConversion raw s).ssq = s.ssq := by
  obtain ⟨r, hr, ssq, -⟩ := announced_stroke (raw := raw) (isJackOrPres_of_jack jack)
  rw [completeConversion_jack jack, ssq, hr]
  by_cases told : Announced (channelInFlight s.msq) raw (entryOf s.msq.table (channelInFlight s.msq))
  · rw [strokeReaders_jack jack told, jackTest_release (s := converted raw s) lift,
      releaseTest_rests (s := converted raw s) (.inl release)]
    rfl
  · rw [strokeReaders_silent told]
    rfl

/-- A jack's result or change of state in LIFT makes LIFT's tests, once the START sample is there (R70). -/
theorem completeConversion_jackLift {st : Stroke} (jack : isJack (channelInFlight s.msq) = true) (lift : s.ssq.phase = .lift)
    (hs : s.ssq.stroke = some st)
    (told : Announced (channelInFlight s.msq) raw (entryOf s.msq.table (channelInFlight s.msq))) :
    (st.startSample = none → (completeConversion raw s).ssq = s.ssq) ∧
      ∀ a, st.startSample = some a →
        liftTested (travelsNow a (completeConversion raw s).msq.table) st s (completeConversion raw s).ssq := by
  obtain ⟨r, hr, ssq, -⟩ := announced_stroke (raw := raw) (isJackOrPres_of_jack jack)
  obtain ⟨early, tested⟩ := (jackTest_spec (converted raw s)).1 lift st hs
  rw [strokeReaders_jack jack told] at hr
  rw [← converted_table, completeConversion_jack jack, ssq, hr]
  refine ⟨fun h0 => by rw [early h0]; rfl, fun a ha => ?_⟩
  obtain ⟨q, lifts, e⟩ := tested a ha
  rw [e]
  exact lifts

end Jack

/-! ### FILL at LCO and FCT (R6, R22, R99 to R101, R108, R109) -/

/-- The column, once known, stays known through a pour's end. -/
theorem endLayer_known (own lMin : Int) (reason : EndReason) (l : Lco) : (endLayer own lMin reason l).known = l.known := by
  unfold endLayer
  (repeat' split) <;> rfl

theorem endPour_known (reason : EndReason) (s : State) : (endPour reason s).lco.known = s.lco.known := by
  rw [endPour]
  refine (endLayer_known _ _ _ _).trans ?_
  split <;> simp

theorem fillTest_known (s : State) : (fillTest s).lco.known = s.lco.known := by
  unfold fillTest
  split
  · simp
  · split <;> simp
  · split
    · exact endPour_known _ _
    · rfl
  · rfl

theorem beginBlock_known (s : State) : (beginBlock s).lco.known = s.lco.known := by
  unfold beginBlock
  split <;> simp [endPour_known]

theorem reportBlock_known (s : State) : (reportBlock s).lco.known = s.lco.known := by
  unfold reportBlock
  split
  · rfl
  · refine (apply_ite (fun t : State => t.lco.known) _ _ _).trans ?_
    split
    · exact beginBlock_known _
    · simp

theorem fillReading_known (own form gap : Int) (l : Lco) : (fillReading own form gap l).known = true := by
  unfold fillReading
  split
  · next h => exact h
  · unfold makeKnown
    split <;> rfl

section Fill

variable {raw : Nat} {s : State}

/-- A normal conversion of FILL, whose scan goes on to T1 (R116). -/
theorem converted_fill (fill : channelInFlight s.msq = .fill) : converted raw s = s.setMsq
    { s.msq with table := (completeConversion raw s).msq.table, scan := .t1 } := by
  have hc : s.msq.chain = none := by
    by_contra h
    obtain ⟨ch, hc⟩ := Option.ne_none_iff_exists'.1 h
    have stroke := (channelInFlight_chain hc).1
    rw [fill] at stroke
    exact nomatch stroke
  have scan : s.msq.scan = .fill := by rw [← fill, channelInFlight, hc]
  rw [converted_scan hc, (completeConversion_scan raw s).2.2, convertMsq_scan raw hc, scan]
  exact congrArg s.setMsq (by rw [show (s.msq.passDone || decide (Channel.fill = .beam)) = s.msq.passDone from Bool.or_false _]; rfl)

theorem completeConversion_fill (fill : channelInFlight s.msq = .fill) :
    completeConversion raw s = announce .fill raw s.msq.table.fill (converted raw s) := by
  have few : ∀ ch, s.msq.chain = some ch → ch.done.length < 4 := fun ch hc => by
    have stroke := (channelInFlight_chain hc).1
    rw [fill] at stroke
    exact nomatch stroke
  rw [completeConversion_open few, announced, fill]
  rfl

theorem converted_fillEntry (fill : channelInFlight s.msq = .fill) :
    (converted raw s).msq.table.fill = entryAfter .fill raw s.msq.table.fill := by
  have entry := completeConversion_entry raw s .fill
  rw [← converted_table, if_pos fill.symm] at entry
  exact entry

theorem scaledValue_fill (raw : Nat) : scaledValue .fill raw = ((raw * 15000 / 4096 : Nat) : Int) := by
  simp [scaledValue, scaleOf]

/-- The fill gap after a good FILL result is the result (R101, R117). -/
theorem fillGap_converted (fill : channelInFlight s.msq = .fill) (good : announcesGood .fill raw s.msq.table.fill = true) :
    fillGap (converted raw s) = scaledValue .fill raw := by
  have range : raw ≤ 4013 := (of_decide_eq_true ((announcesGood_iff _ _ _).1 good).1).2
  rw [fillGap, converted_fillEntry fill, announcesGood_value good, scaledValue_fill]
  simp only [Option.getD_some, clamp]
  omega

/-- A good FILL result at LCO, then at FCT, which takes a change to GOOD besides (R6, R22, R99, R101, R108, R109, R130). -/
theorem completeConversion_fillGood {gap : Int} (fill : channelInFlight s.msq = .fill)
    (good : announcesGood .fill raw s.msq.table.fill = true) (hg : gap = ((raw * 15000 / 4096 : Nat) : Int)) :
    (completeConversion raw s).lco.known = true ∧
    ∃ l v, fillTaken gap s l ∧ fillTested gap ((converted raw s).setLco l) v ∧
      (s.msq.table.fill.state = .good → completeConversion raw s = v) ∧
      (s.msq.table.fill.state ≠ .good → blockTested v (completeConversion raw s)) := by
  have value : scaledValue .fill raw = gap := (scaledValue_fill raw).trans hg.symm
  obtain ⟨l, taken, tested⟩ := (announceResult_spec (c := .fill) (v := gap) (s := converted raw s)
    fun _ => (fillGap_converted fill good).trans value).2.2.1 rfl
  have known : (announceResult .fill gap (converted raw s)).lco.known = true :=
    (fillTest_known _).trans (fillReading_known _ _ _ _)
  have after := ((announcesGood_iff _ _ _).1 good).2.2
  rw [completeConversion_fill fill, announce, if_pos good, value, after]
  refine ⟨?_, l, _, taken, tested, fun was => ?_, fun was => ?_⟩
  · split
    · exact (reportBlock_known _).trans known
    · exact known
  · exact if_neg (not_not.2 was.symm)
  · rw [if_pos (Ne.symm was)]
    exact reportBlock_spec _

/-- A FILL channel that becomes FAULTED begins the pour block where none was (R99, R100, R119). -/
theorem completeConversion_fillFaulted (fill : channelInFlight s.msq = .fill) (was : s.msq.table.fill.state ≠ .faulted)
    (after : (entryAfter .fill raw s.msq.table.fill).state = .faulted) (free : s.fct.blocked = false) :
    blockTested (converted raw s) (completeConversion raw s) ∧ blockBegun (converted raw s) (completeConversion raw s) := by
  have silent : ¬ announcesGood .fill raw s.msq.table.fill = true := fun good =>
    nomatch after.symm.trans ((announcesGood_iff _ _ _).1 good).2.2
  have whole : completeConversion raw s = reportBlock (converted raw s) := by
    rw [completeConversion_fill fill, announce, if_neg silent, after, if_pos (Ne.symm was)]
    rfl
  have tested := reportBlock_spec (converted raw s)
  rw [← whole] at tested
  have blocks : blockedNow (converted raw s) := .inr (.inr (.inr (.inr (.inl (by
    rw [converted_fillEntry fill, after]; nofun)))))
  exact ⟨tested, tested.2.2.1 blocks free⟩

end Fill

/-! ### The sense condition, and the readers one after the other (R129, R130) -/

theorem triggered_sense (tag : Tag) (m : Msq) : (triggered tag m).sense = m.sense := by
  unfold triggered
  (repeat' split) <;> rfl

theorem releaseTest_sense (s : State) : (releaseTest s).msq.sense = s.msq.sense := by
  rcases releaseTest_msq s with same | ⟨-, -, fired⟩
  · rw [same]
  · rw [fired, triggered_sense]

theorem jackTest_sense (s : State) : (jackTest s).msq.sense = s.msq.sense := by
  by_cases lift : s.ssq.phase = .lift
  · rw [jackTest_lift lift]; simp
  · rw [jackTest_release lift, releaseTest_sense]

theorem pressureResult_sense (v : Int) (s : State) : (pressureResult v s).msq.sense = s.msq.sense := by
  have phase : (pressurePhase v s).msq.sense = s.msq.sense := by
    rcases pressurePhase_msq v s with same | ⟨-, -, fired⟩
    · rw [same]
    · rw [fired, triggered_sense]
  rw [pressureResult, ← phase]
  rcases overpressureTest_msq v (pressurePhase v s) with same | ⟨-, -, -, cut⟩
  · rw [same]
  · rw [cut]

/-- SSQ's tests leave the sense condition as it was. -/
theorem strokeReaders_sense (c : Channel) (raw : Nat) (e : ChanEntry) (s : State) :
    (strokeReaders c raw e s).msq.sense = s.msq.sense := by
  unfold strokeReaders
  (repeat' split)
  · exact pressureResult_sense _ s
  · exact jackTest_sense s
  · exact releaseTest_sense s
  · exact jackTest_sense s
  · rfl

/-- A jack's or PRES's change of state tests the sense condition (R129). -/
theorem completeConversion_sense {raw : Nat} {s : State} (stroke : isJackOrPres (channelInFlight s.msq) = true)
    (change : (entryAfter (channelInFlight s.msq) raw (entryOf s.msq.table (channelInFlight s.msq))).state ≠
      (entryOf s.msq.table (channelInFlight s.msq)).state) :
    (completeConversion raw s).msq.sense = senseNow (completeConversion raw s).msq.table ∧
    ((completeConversion raw s).msq.sense ≠ s.msq.sense →
      (completeConversion raw s).mct.hold.sense = (completeConversion raw s).msq.sense) := by
  obtain ⟨-, hold, -, sense⟩ := completeConversion_causes raw s
  have before : (converted raw s).msq.sense = s.msq.sense := by rw [converted_eq]; rfl
  rw [sense, hold, ← converted_table, announced, announce_stroke stroke, if_pos change, senseTest_msq, ← before,
    ← strokeReaders_sense (channelInFlight s.msq) raw (entryOf s.msq.table (channelInFlight s.msq)) (converted raw s),
    ← (strokeReaders_scanKept (channelInFlight s.msq) raw (entryOf s.msq.table (channelInFlight s.msq)) (converted raw s)).table]
  exact ⟨rfl, (senseTest_causes _).2⟩

/-- The state after the readers of a good result, before those of a change of state. -/
def resultHeard (raw : Nat) (s : State) : State :=
  if announcesGood (channelInFlight s.msq) raw (entryOf s.msq.table (channelInFlight s.msq)) then
    announceResult (channelInFlight s.msq) (scaledValue (channelInFlight s.msq) raw) (converted raw s)
  else converted raw s

theorem announced_eq (raw : Nat) (s : State) : announced raw s =
    if (entryAfter (channelInFlight s.msq) raw (entryOf s.msq.table (channelInFlight s.msq))).state ≠
        (entryOf s.msq.table (channelInFlight s.msq)).state then
      announceChange (channelInFlight s.msq) (resultHeard raw s)
    else resultHeard raw s := rfl

/-- A conversion's steps one after the other: the result's readers, the change's readers, the chain's end (R120, R130). -/
theorem completeConversion_steps {raw : Nat} {s : State} {c : Channel} {e : ChanEntry} (hc : c = channelInFlight s.msq)
    (he : e = entryOf s.msq.table c) :
    (announcesGood c raw e = true → resultTaken c (scaledValue c raw) (converted raw s) (resultHeard raw s)) ∧
    (announcesGood c raw e = false → resultHeard raw s = converted raw s) ∧
    ((entryAfter c raw e).state ≠ e.state → changeTaken c (resultHeard raw s) (announced raw s)) ∧
    ((entryAfter c raw e).state = e.state → announced raw s = resultHeard raw s) ∧
    chainEnded (announced raw s) (completeConversion raw s) := by
  subst hc he
  refine ⟨fun good => ?_, fun silent => ?_, fun change => ?_, fun same => ?_, finishChain_spec (announced raw s)⟩
  · rw [resultHeard, if_pos good]
    refine announceResult_spec fun fill => ?_
    rw [fill] at good ⊢
    exact fillGap_converted fill good
  · rw [resultHeard, silent]
    exact if_neg Bool.false_ne_true
  · rw [announced_eq, if_pos change]
    exact announceChange_spec _ _
  · rw [announced_eq, if_neg (not_not.2 same)]

end Sys2Proof.Machine
end

section
/-! The conversion's statement assembled (R116 to R130). -/

namespace Sys2Proof.Machine

theorem exec_conversionComplete {s : State} (runs : blocksRun s = true) (raw : BitVec 12) :
    exec (.conversionComplete raw) s = .next (completeConversion raw.toNat s) := congrArg Host.Outcome.next (if_pos runs)

/-- A conversion of the scan that no block follows (R116, R130). -/
theorem completeConversion_unread {raw : Nat} {s : State} (hc : s.msq.chain = none) (fill : s.msq.scan ≠ .fill)
    (stroke : isJackOrPres s.msq.scan = false) : completeConversion raw s = converted raw s := by
  have c : channelInFlight s.msq = s.msq.scan := by rw [channelInFlight, hc]
  rw [completeConversion_open (fun ch h => (nomatch hc.symm.trans h)), announced, c, announce_unread stroke fill]

/-- Where the last conversion of an END chain neither raises the overpressure condition nor changes PRES's state, the announcements
leave the mark alone (R79). -/
theorem announced_quiet {raw : Nat} {s : State} {ch : Chain} (hc : s.msq.chain = some ch) (full : ch.done.length = 4)
    (phase : s.ssq.phase = .settle)
    (low : announcesGood .pres raw s.msq.table.pres = true → ((raw * 4000 / 4096 : Nat) : Int) ≤ s.srs.active.pOver)
    (same : (entryAfter .pres raw s.msq.table.pres).state = s.msq.table.pres.state) :
    announced raw s = (converted raw s).setSsq { s.ssq with
      overpressure := if announcesGood .pres raw s.msq.table.pres then false else s.ssq.overpressure } := by
  have pres := (channelInFlight_chain hc).2.2 full.ge
  have phase' : (converted raw s).ssq.phase = .settle := phase
  rw [announced_eq, resultHeard, pres]
  show (if (entryAfter .pres raw s.msq.table.pres).state ≠ s.msq.table.pres.state then _ else _) = _
  rw [if_neg (not_not.2 same)]
  show (if announcesGood .pres raw s.msq.table.pres = true then pressureResult (scaledValue .pres raw) (converted raw s)
    else converted raw s) = _
  by_cases good : announcesGood .pres raw s.msq.table.pres = true
  · rw [if_pos good, if_pos good, pressureResult, pressurePhase_release _ (by rw [phase']; nofun),
      releaseTest_rests (.inl (by rw [phase']; nofun)), overpressureTest_low (by rw [scaledValue_pres]; exact low good)]
    rfl
  · rw [if_neg good, if_neg good]
    rfl

/-! ### The receive FIFO through a conversion -/

theorem completeSettle_fifo (st : Stroke) (s : State) : (completeSettle st s).lif.fifo = s.lif.fifo := by
  have report (st : Stroke) (u : State) : (reportOutcome st u).lif.fifo = u.lif.fifo := by
    by_cases kind : st.kind = .calibration
    · rw [reportOutcome_calibration kind]; rfl
    · rw [reportOutcome_stroke kind]
      split <;> simp [windowJoined]
  simp [completeSettle, report]

theorem deliverSample_fifo (tag : Tag) (p : Sample) (s : State) : (deliverSample tag p s).lif.fifo = s.lif.fifo := by
  by_cases h : tag = .finish ∧ s.ssq.phase = .settle
  · obtain ⟨rfl, hp⟩ := h
    cases hs : s.ssq.stroke with
    | none => rw [deliverSample, hs]
    | some st => rw [deliverSample_completes hp hs, completeSettle_fifo]; rfl
  · rw [deliverSample_stores h]; rfl

theorem releaseTest_fifo (s : State) : (releaseTest s).lif.fifo = s.lif.fifo := by
  unfold releaseTest enterSettle fireTrigger
  (repeat' split) <;> simp [deliverSample_fifo]

theorem jackTest_fifo (s : State) : (jackTest s).lif.fifo = s.lif.fifo := by
  by_cases lift : s.ssq.phase = .lift
  · rw [jackTest_lift lift]; simp
  · rw [jackTest_release lift, releaseTest_fifo]

theorem pressureResult_fifo (v : Int) (s : State) : (pressureResult v s).lif.fifo = s.lif.fifo := by
  have phase : (pressurePhase v s).lif.fifo = s.lif.fifo := by
    by_cases hp : s.ssq.phase = .pressurize
    · by_cases hv : s.srs.active.pLift ≤ v
      · rw [pressurePhase_enters hp hv]; simp
      · rw [pressurePhase_stays hp (Int.not_le.1 hv)]
    · rw [pressurePhase_release v hp, releaseTest_fifo]
  rw [pressureResult, ← phase]
  unfold overpressureTest
  split <;> simp

theorem fillTest_fifo (s : State) : (fillTest s).lif.fifo = s.lif.fifo := by
  unfold fillTest
  split
  · simp
  · split <;> simp
  · split <;> simp
  · rfl

theorem senseTest_fifo (s : State) : (senseTest s).lif.fifo = s.lif.fifo := by
  unfold senseTest
  simp only
  (repeat' split) <;> simp

theorem announce_fifo (c : Channel) (raw : Nat) (e : ChanEntry) (s : State) : (announce c raw e s).lif.fifo = s.lif.fifo := by
  have result (v : Int) (u : State) : (announceResult c v u).lif.fifo = u.lif.fifo := by
    cases c <;> simp [announceResult, jackTest_fifo, pressureResult_fifo, fillResult, fillTest_fifo]
  have change (u : State) : (announceChange c u).lif.fifo = u.lif.fifo := by
    cases c <;> simp [announceChange, senseTest_fifo, jackTest_fifo, releaseTest_fifo]
  unfold announce
  (repeat' split) <;> simp [result, change]

theorem completeConversion_fifo (raw : Nat) (s : State) : (completeConversion raw s).lif.fifo = s.lif.fifo := by
  have told : (announced raw s).lif.fifo = s.lif.fifo := announce_fifo _ _ _ _
  by_cases h : ∀ ch, s.msq.chain = some ch → ch.done.length < 4
  · rw [completeConversion_open h, told]
  · push Not at h
    obtain ⟨ch, hc, full⟩ := h
    rw [completeConversion_full hc full]
    exact (deliverSample_fifo _ _ _).trans told

/-- A conversion that announces nothing before a chain's end leaves its own step of MSQ alone (R120). -/
theorem completeConversion_silent {raw : Nat} {s : State}
    (silent : ¬ Announced (channelInFlight s.msq) raw (entryOf s.msq.table (channelInFlight s.msq)))
    (few : ∀ ch, s.msq.chain = some ch → ch.done.length < 4) : completeConversion raw s = s.setMsq
      { s.msq with
        table := (completeConversion raw s).msq.table, scan := (completeConversion raw s).msq.scan
        passDone := (completeConversion raw s).msq.passDone, chain := (completeConversion raw s).msq.chain } := by
  have whole : completeConversion raw s = converted raw s := by
    rw [completeConversion_open few, announced, announce_silent silent]
  have chain : (completeConversion raw s).msq.chain = (converted raw s).msq.chain := by rw [whole]
  rw [chain, converted_eq]
  exact whole.trans (converted_eq raw s)

/-- A conversion of a chain, before it is announced (R122, R123). -/
theorem converted_chain {raw : Nat} {s : State} {ch : Chain} (hc : s.msq.chain = some ch) : converted raw s = s.setMsq
    { s.msq with
      table := (completeConversion raw s).msq.table
      chain := some { ch with
        done := ch.done ++ [sampleElem (channelInFlight s.msq) raw (entryOf s.msq.table (channelInFlight s.msq))] } } := by
  rw [(completeConversion_scan raw s).1, converted, convertMsq_chain raw hc]

/-- Settles O56: each reader's part is a lemma about the conversion's step that reaches it. -/
theorem conversionComplete : Obligations.ConversionComplete := by
  refine ⟨rfl, fun m ch hc few => ?_, announcesGood_iff, fun _ _ _ _ _ => rfl, fun _ _ _ => rfl, fun raw s runs => ?_⟩
  · have e : channelInFlight m = (chainOrder[ch.done.length]?).getD .pres := by rw [channelInFlight, hc]
    rw [e]
    have bound : ch.done.length < chainOrder.length := Nat.lt_succ_of_le few
    rw [show ([Channel.j1, .j2, .j3, .j4, .pres] : List Channel) = chainOrder from rfl, List.getElem?_eq_getElem bound]
    rfl
  refine ⟨completeConversion raw.toNat s, exec_conversionComplete runs raw, ?_, ?_, ?_, ?_, ?_, ?_, ?_, ?_, ?_⟩
  · exact completeConversion_entry raw.toNat s
  · intro hc
    obtain ⟨-, scan, pass⟩ := completeConversion_scan raw.toNat s
    have moved := convertMsq_scan raw.toNat hc
    rw [moved] at scan pass
    refine ⟨by rw [channelInFlight, hc], scan, pass, fun fill stroke => ?_⟩
    exact (completeConversion_unread hc fill stroke).trans (converted_scan hc)
  · intro ch hc
    obtain ⟨-, scan, pass⟩ := completeConversion_scan raw.toNat s
    have moved := convertMsq_chain raw.toNat hc
    rw [moved] at scan pass
    refine ⟨scan, pass, fun few => ?_, fun full ht waits hs p hp => ?_, fun full rests uncut => ?_,
      fun full ht waits phase told home => ?_, fun st full ht phase hs => ?_⟩
    · rw [completeConversion_entry, if_pos rfl,
        completeConversion_open (fun d h => Option.some.inj (hc.symm.trans h) ▸ few), announced_chain hc]
      rfl
    · subst hp
      exact completeConversion_sample hc full ht waits (by simpa using hs)
    · obtain ⟨next, none⟩ := completeConversion_next (raw := raw.toNat) hc full
      obtain ⟨r, hr, -, pending⟩ := announced_last (raw := raw.toNat) hc full
      rw [← converted_table] at rests
      have stays : r.msq.pendingTrigger = s.msq.pendingTrigger := by
        rw [hr, ← converted_pending raw.toNat s]
        exact strokeReaders_pending (s := converted raw.toNat s) rests
          fun phase start => uncut phase ((converted_pending raw.toNat s).symm.trans start)
      rw [pending, stays] at next
      exact ⟨next, none⟩
    · exact completeConversion_returns hc full ht waits phase told home
    · obtain ⟨idle, gone, count, next, none, whole⟩ := completeConversion_completes (raw := raw.toNat) hc full ht phase hs
      refine ⟨idle, gone, count, next, none, ?_⟩
      rintro set done u rfl rfl rfl low same
      have after := completeConversion_entry raw.toNat s .pres
      rw [if_pos ((channelInFlight_chain hc).2.2 full.ge).symm] at after
      have quiet := announced_quiet hc full phase low ((congrArg ChanEntry.state after).symm.trans same)
      rw [quiet, converted_chain hc, (channelInFlight_chain hc).2.2 full.ge] at whole
      exact whole
  · rintro v pres good rfl
    obtain ⟨mark, safe⟩ := completeConversion_overpressure pres good
    exact ⟨mark, safe, fun phase low => completeConversion_pressurize rfl pres good phase low⟩
  · rintro c e rfl rfl
    refine ⟨fun silent few => ?_, completeConversion_jackElsewhere, fun st hs told => ⟨fun jack lift => ?_, fun stroke phase few => ?_⟩⟩
    · exact completeConversion_silent silent few
    · exact completeConversion_jackLift jack lift hs told
    · exact completeConversion_release stroke phase hs told few
  · rintro gap e fill hg rfl
    refine ⟨fun good => ?_, fun was after free u hu => ?_⟩
    · obtain ⟨known, l, v, taken, tested, same, change⟩ := completeConversion_fillGood fill good hg
      rw [converted_fill fill] at tested
      exact ⟨known, l, _, v, taken, rfl, tested, same, change⟩
    · obtain ⟨tested, still, waiting, claim, pours⟩ := completeConversion_fillFaulted fill was after free
      rw [converted_fill fill, ← hu] at tested still waiting claim pours
      subst hu
      exact ⟨tested, pours, still, waiting, fun claims => by rw [claim claims]; rfl⟩
  · intro stroke change
    rw [completeConversion_entry, if_pos rfl] at change
    exact completeConversion_sense stroke change
  · intro c e hc he
    obtain ⟨good, silent, change, same, ends⟩ := completeConversion_steps (raw := raw.toNat) hc he
    subst hc he
    exact ⟨converted raw.toNat s, resultHeard raw.toNat s, announced raw.toNat s, converted_eq raw.toNat s, good, silent, change,
      same, ends⟩
  · exact ⟨by simp, by simp, by simp, by simp, completeConversion_fifo _ _, by simp, by simp, by simp⟩

end Sys2Proof.Machine
end

section
/-! The load step of a start, and the line and the converter during steps 1 to 3 (R131, R174, R193, R194, R200). -/

namespace Sys2Proof.Machine

/-! ### The load step (R193, R194) -/

theorem fieldValue_none {c : Settings} {n : Nat} (h : n = 0 ∨ 41 < n) : fieldValue c n = none := by
  match n, h with
  | 0, _ => rfl
  | n + 42, _ => rfl

theorem inFieldRange_iff (n : Nat) (v : Int) :
    inFieldRange n v = true ↔ ∃ lo hi, fieldRange n = some (lo, hi) ∧ lo ≤ v ∧ v ≤ hi := by
  have unfolded : inFieldRange n v = match fieldRange n with
    | some (lo, hi) => decide (lo ≤ v ∧ v ≤ hi)
    | none => false := rfl
  rw [unfolded]
  cases fieldRange n with
  | none => simp
  | some range =>
    obtain ⟨lo, hi⟩ := range
    simp only [decide_eq_true_eq, Option.some.injEq, Prod.mk.injEq]
    exact ⟨fun h => ⟨lo, hi, ⟨rfl, rfl⟩, h⟩, fun ⟨_, _, ⟨rfl, rfl⟩, h⟩ => h⟩

/-- Test 2 of R194. -/
theorem fieldsInRange_iff (c : Settings) : fieldsInRange c = true ↔
    (∀ n v, fieldValue c n = some v → ∃ lo hi, fieldRange n = some (lo, hi) ∧ lo ≤ v ∧ v ≤ hi) ∧
      ∀ n, 1 ≤ n → n ≤ 41 → fieldValue c n = none → n = 41 := by
  have fields : fieldsInRange c = true ↔ ∀ n, 1 ≤ n → n ≤ 41 →
      (match fieldValue c n with | some v => inFieldRange n v | none => n == 41) = true := by
    rw [fieldsInRange, List.all_eq_true]
    constructor
    · intro h n low high
      exact h n (List.mem_map.2 ⟨n - 1, List.mem_range.2 (by omega), by omega⟩)
    · intro h n hn
      obtain ⟨k, hk, rfl⟩ := List.mem_map.1 hn
      have := List.mem_range.1 hk
      exact h (k + 1) (by omega) (by omega)
  rw [fields]
  constructor
  · refine fun h => ⟨fun n v hv => ?_, fun n low high hn => ?_⟩
    · have bounds : 1 ≤ n ∧ n ≤ 41 := by
        by_contra outside
        rw [fieldValue_none (by omega)] at hv
        exact nomatch hv
      have inside := h n bounds.1 bounds.2
      rw [hv] at inside
      exact (inFieldRange_iff n v).1 inside
    · have last := h n low high
      rw [hn] at last
      exact beq_iff_eq.1 last
  · intro ⟨ranges, absent⟩ n low high
    cases hv : fieldValue c n with
    | none => exact beq_iff_eq.2 (absent n low high hv)
    | some v => exact (inFieldRange_iff n v).2 (ranges n v hv)

/-- The seven cross-field rules (R193). -/
theorem crossFieldsHold_iff (c : Settings) : crossFieldsHold c = true ↔ c.sector < c.ringSectors ∧
    (c.probe1 < c.probe2 ∧ c.probe2 < c.probe3 ∧ c.probe3 < c.probe4 ∧ c.probe4 < c.formHeight) ∧
    c.smin ≤ c.creepStroke ∧ (∀ m, c.fullStroke = some m → c.smax ≤ m - 10) ∧ (c.pRest < c.pLift ∧ c.pLift < c.pOver) ∧
    c.mRel + 10000 ≤ c.mStick ∧ c.gFull < c.gReq - 500 := by
  unfold crossFieldsHold
  cases c.fullStroke <;> simp [and_assoc]

theorem loadsGood_iff (c : Settings) (agrees : Bool) : loadsGood c agrees = true ↔
    agrees = true ∧ (∀ n v, fieldValue c n = some v → ∃ lo hi, fieldRange n = some (lo, hi) ∧ lo ≤ v ∧ v ≤ hi) ∧
      (∀ n, 1 ≤ n → n ≤ 41 → fieldValue c n = none → n = 41) ∧ c.sector < c.ringSectors ∧
      (c.probe1 < c.probe2 ∧ c.probe2 < c.probe3 ∧ c.probe3 < c.probe4 ∧ c.probe4 < c.formHeight) ∧
      c.smin ≤ c.creepStroke ∧ (∀ m, c.fullStroke = some m → c.smax ≤ m - 10) ∧
      (c.pRest < c.pLift ∧ c.pLift < c.pOver) ∧ c.mRel + 10000 ≤ c.mStick ∧ c.gFull < c.gReq - 500 ∧ c.station ≠ 0 := by
  simp only [loadsGood, Bool.and_eq_true, fieldsInRange_iff, crossFieldsHold_iff, decide_eq_true_eq, and_assoc]

/-- Every start has a place for a gate (R192, R194). -/
theorem loadedSettings_place (r : Srs) : 0 < (loadedSettings r).gateLimit := by
  unfold loadedSettings
  by_cases good : loadPasses r = true
  · rw [if_pos good]
    obtain ⟨-, ranges, -⟩ := (loadsGood_iff _ _).1 good
    obtain ⟨lo, hi, range, low, -⟩ := ranges 5 _ rfl
    cases range
    omega
  · rw [if_neg good]
    decide

/-! ### The line during steps 1 to 3 (R174, R200) -/

/-- LIF but for what its receiver has heard. -/
def sendingSide (l : Lif) : Lif :=
  { l with
    rx := .ready, fifo := [], lastSender := 0, quietUs := 0, byteLeftUs := 0, rejoinMs := 0, rejoinCount := 0, framingErrors := 0,
    checkErrors := 0, overruns := 0 }

theorem receiveLine_side (own : Nat) (v : Verdict) (l : Lif) : sendingSide (receiveLine own v l) = sendingSide l := by
  have judged : sendingSide (judgedLine own v l) = sendingSide l := by
    cases v with
    | framing => simp only [judgedLine, countFraming, rejoinRestart]; split <;> rfl
    | check => simp only [judgedLine, countCheck, rejoinRestart]; split <;> rfl
    | clean p => simp only [judgedLine, cleanPostLine, offerPost]; (repeat' split) <;> rfl
  by_cases h : hears l = true
  · rw [receiveLine, if_pos h]; exact judged
  · rw [receiveLine, if_neg h]; rfl

theorem framingErrorLine_side (bitUs quiet : Nat) (l : Lif) : sendingSide (framingErrorLine bitUs quiet l) = sendingSide l := by
  have passed (m : Lif) : sendingSide (errorPassed bitUs m) = sendingSide m := by
    rcases errorPassed_cases bitUs m with e | ⟨-, -, e⟩
    · rw [e]
    · rw [e]; rfl
  rw [framingErrorLine, passed]
  by_cases h : hears l = true
  · rw [if_pos h]
    simp only [countFraming, rejoinRestart]
    split <;> rfl
  · rw [if_neg h]; rfl

/-- What a start hears leaves the posts, MUTE, silence and the bucket alone. -/
theorem heard_side (own bitUs : Nat) (heard : List StartEvent) (l : Lif) :
    sendingSide (heard.foldl (heardLif own bitUs) l) = sendingSide l := by
  induction heard generalizing l with
  | nil => rfl
  | cons e rest ih =>
    refine (ih _).trans ?_
    cases e with
    | startBit quiet => rfl
    | post bytes => exact receiveLine_side own _ l
    | framingError quiet => exact framingErrorLine_side bitUs quiet l
    | conversion raw => rfl
    | beamPresent on => rfl

/-- No report of the identity test comes where no clean post carries the own number (R40). -/
theorem heardIdentity_foreign {own bitUs : Nat} {heard : List StartEvent}
    (foreign : ∀ bytes p, .post bytes ∈ heard → judgePost bytes = .clean p → p.sender ≠ own) (l : Lif) :
    heardIdentity own bitUs l heard = false := by
  induction heard generalizing l with
  | nil => rfl
  | cons e rest ih =>
    rw [heardIdentity, ih (fun bytes p hp => foreign bytes p (List.mem_cons_of_mem _ hp)), Bool.or_false]
    cases e with
    | post bytes =>
      show (hears l && isIdentityPost own (judgePost bytes)) = false
      cases hv : judgePost bytes with
      | clean p => simp [isIdentityPost, foreign bytes p (List.mem_cons_self) hv]
      | framing => simp [isIdentityPost]
      | check => simp [isIdentityPost]
    | _ => rfl

/-- A first post with the own number, 1 to 62, is one (R40). -/
theorem heardIdentity_own {own bitUs : Nat} {bytes : List Byte} {p : RxPost} {later : List StartEvent}
    (clean : judgePost bytes = .clean p) (same : p.sender = own) (low : 1 ≤ own) (high : own ≤ 62) :
    heardIdentity own bitUs (lifAtStart own) (.post bytes :: later) = true := by
  have first : reportsIdentity own (lifAtStart own) (.post bytes) = true := by
    show (hears (lifAtStart own) && isIdentityPost own (judgePost bytes)) = true
    rw [clean]
    simp [hears, lifAtStart, isIdentityPost, same, low, high]
  rw [heardIdentity, first, Bool.true_or]

end Sys2Proof.Machine
end

section
/-! Step 3 of a start after the blocks are built: the posts queued, the pour block, the sense condition and the identity clash (R101,
R102, R114, R129, R154, R173, R200). -/

namespace Sys2Proof.Machine

/-! ### The posts that a start queues (R114, R154) -/

/-- What `startPosts` leaves: the GATE post, and the HALT post of an active E-stop, neither at station 0. -/
structure PostsQueued (s t : State) : Prop where
  whole : t = (s.setLif t.lif).setMct t.mct
  mct : t.mct =
    { s.mct with
      queuedHalt := if s.mct.estopActive = true ∧ ownStation s ≠ 0 then some { kind := .all, reason := .estop } else s.mct.queuedHalt }
  line : t.lif = { s.lif with gateSlot := t.lif.gateSlot, haltSlot := t.lif.haltSlot, nextStamp := t.lif.nextStamp }
  gate : t.lif.gateSlot.map Slot.post =
    if ownStation s = 0 then s.lif.gateSlot.map Slot.post
    else some { state := s.fct.gate, needAtOpen := s.fct.needAtOpen.getD 0, yielded := false }
  halt : t.lif.haltSlot.map Slot.post =
    if s.mct.estopActive = true ∧ ownStation s ≠ 0 then some { kind := .all, reason := .estop } else s.lif.haltSlot.map Slot.post

theorem startPosts_queued {s : State} (clear : s.mct.safe.identityClash = false) : PostsQueued s (startPosts s) := by
  by_cases own : ownStation s = 0
  · have gate : queueGate false s = s := if_pos own
    have halt : startPosts s = s := by
      rw [startPosts, gate]
      split
      · exact if_pos (.inl own)
      · rfl
    rw [halt]
    refine ⟨rfl, ?_, rfl, (if_pos own).symm, ?_⟩
    · rw [if_neg (fun h => h.2 own)]
    · rw [if_neg (fun h => h.2 own)]
  · have gate : queueGate false s = s.setLif
        (queueGatePost { state := s.fct.gate, needAtOpen := s.fct.needAtOpen.getD 0, yielded := false } s.lif) := if_neg own
    cases estop : s.mct.estopActive with
    | false =>
      have halt : startPosts s = queueGate false s := by
        rw [startPosts, gate]
        exact if_neg (by rw [State.setLif_mct, estop]; nofun)
      rw [halt, gate]
      refine ⟨rfl, ?_, rfl, ?_, ?_⟩
      · rw [estop, if_neg (fun h => (nomatch h.1))]; rfl
      · rw [if_neg own]; exact fillSlot_post _ _ _
      · rw [estop, if_neg (fun h => (nomatch h.1))]; rfl
    | true =>
      have halt : startPosts s = queueHalt { kind := .all, reason := .estop } (queueGate false s) := by
        rw [startPosts, gate]
        exact if_pos estop
      rw [halt, gate]
      refine (congrArg (PostsQueued s) (if_neg ?_)).mpr ⟨rfl, ?_, rfl, ?_, ?_⟩
      · rintro (h | h | h)
        · exact own h
        · exact nomatch clear.symm.trans h
        · exact nomatch h.1
      · rw [estop, if_pos ⟨rfl, own⟩]; rfl
      · rw [if_neg own]; exact fillSlot_post _ _ _
      · rw [estop, if_pos ⟨rfl, own⟩]; exact fillSlot_post _ _ _

/-! ### The feed of a start (R99 to R102) -/

/-- FCT and its claim once a start has taken the channel states, from the state `p` with the pour blocked and in DRY. -/
structure FeedStarted (p t : State) : Prop where
  frame : { t.fct with pour := .dry, blocked := true, claimNumber := 0, ownClaim := none } = p.fct
  held : blockedNow p → t.fct = p.fct
  blocked : t.fct.blocked = true ↔ blockedNow t
  rests : ¬ wants t → t.fct.pour = .dry ∧ t.fct.ownClaim = none ∧ t.lif.claimSlot = none
  claims : wants t → t.fct.pour = .claiming ∧ t.fct.claimNumber = 1 ∧
    t.fct.ownClaim = some { need := fillGap t, number := 1, sent := false } ∧
    t.lif.claimSlot.map Slot.post = some { need := fillGap t, number := 1 }

/-- FCT as every start builds it, with a place for its gate (R45, R114). -/
structure FeedBuilt (p : State) : Prop where
  fct : { p.fct with pour := .dry, blocked := true, claimNumber := 0, ownClaim := none } = p.fct
  claim : p.lif.claimSlot = none
  place : p.pvw.peers = [] ∧ 0 < p.srs.active.gateLimit
  plain : p.cpl.record.bind = false

theorem FeedBuilt.start {p : State} (h : FeedBuilt p) :
    p.fct.pour = .dry ∧ p.fct.blocked = true ∧ p.fct.claimNumber = 0 ∧ p.fct.ownClaim = none :=
  ⟨(congrArg Fct.pour h.fct).symm, (congrArg Fct.blocked h.fct).symm, (congrArg Fct.claimNumber h.fct).symm,
    (congrArg Fct.ownClaim h.fct).symm⟩

/-- What the pour block and the test of R101 make of it. -/
theorem reportBlock_started {p : State} (h : FeedBuilt p) : FeedStarted p (reportBlock p) ∧
    reportBlock p = (p.setLif (reportBlock p).lif).setFct (reportBlock p).fct ∧
    (reportBlock p).lif = { p.lif with claimSlot := (reportBlock p).lif.claimSlot, nextStamp := (reportBlock p).lif.nextStamp } := by
  obtain ⟨dry, blocked, number, claim⟩ := h.start
  obtain ⟨still, -, -, ends⟩ := reportBlock_spec p
  by_cases blocks : blockedNow p
  · rw [still blocks blocked]
    exact ⟨⟨h.fct, fun _ => rfl, iff_of_true blocked blocks, fun _ => ⟨dry, claim, h.claim⟩, fun w => absurd blocks w.2.2.1⟩, rfl, rfl⟩
  · obtain ⟨rests, claims, -⟩ := (ends blocks blocked).1 dry
    by_cases w : wants (p.setFct { p.fct with blocked := false })
    · have place : (notClosedGates (p.setFct { p.fct with blocked := false }) : Int) < p.srs.active.gateLimit := by
        show ((p.pvw.peers.countP fun q => decide (q.gate ≠ .closed) : Nat) : Int) < _
        rw [h.place.1]
        exact h.place.2
      have need : needNow (p.setFct { p.fct with blocked := false }) = fillGap p := by
        unfold needNow
        show (if p.cpl.record.bind = true then (15000 : Int) else fillGap p) = fillGap p
        rw [h.plain]
        rfl
      rw [claims w place]
      have first : (p.fct.claimNumber + 1) % 256 = 1 := by rw [number]
      refine ⟨⟨h.fct, fun b => absurd b blocks, iff_of_false nofun blocks, fun n => absurd w n, fun _ => ⟨rfl, first, ?_, ?_⟩⟩, rfl, rfl⟩
      · show some (OwnClaim.mk (needNow _) ((p.fct.claimNumber + 1) % 256) false) = _
        rw [need, first]
        rfl
      · refine (fillSlot_post _ _ _).trans ?_
        show some (ClaimPost.mk (needNow _) ((p.fct.claimNumber + 1) % 256)) = _
        rw [need, first]
        rfl
    · rw [rests w]
      exact ⟨⟨h.fct, fun b => absurd b blocks, iff_of_false nofun blocks, fun _ => ⟨rfl, claim, h.claim⟩, fun v => absurd v w⟩, rfl, rfl⟩

/-! ### The sense condition of a start (R129, R200) -/

/-- A change of the causes that brings no change of mode or pour block, SSQ being IDLE, has no effect of its own. -/
theorem afterCauses_still {m : Mct} {s : State} (mode : modeOf s.mct = modeOf m) (idle : s.ssq.phase = .idle)
    (block : s.fct.blocked = true ↔ blockedNow s) : afterCauses m s = s := by
  have same : reportBlock s = s := reportBlock_same s (Bool.eq_iff_iff.2 ((pourBlocked_iff s).trans block.symm))
  simp [afterCauses, mode, settlesNow, idle, same]

/-- A mode other than CLIMB stays with another hold cause (R135). -/
theorem modeOf_sense {m : Mct} (h : modeOf m ≠ .climb) : modeOf { m with hold := { m.hold with sense := true } } = modeOf m := by
  by_cases safe : m.safe = noSafe
  · have base : m.base = .setup ∨ m.base = .running := by cases m.base <;> simp
    rcases base with hb | hb
    · rw [modeOf_setup safe hb]; exact modeOf_setup safe hb
    · have more : { m.hold with sense := true } ≠ noHold := fun e => nomatch congrArg HoldSet.sense e
      rw [modeOf_running safe hb] at h ⊢
      have held : m.hold ≠ noHold := fun none => h (if_pos none)
      rw [if_neg held]
      exact (modeOf_running (m := { m with hold := { m.hold with sense := true } }) safe hb).trans (if_neg more)
  · rw [(modeOf_safe_iff m).2 safe]
    exact (modeOf_safe_iff _).2 safe

/-- The state with the sense condition as the channels give it, with its hold cause (R129). -/
def senseSet (s : State) : State :=
  (s.setMsq { s.msq with sense := senseNow s.msq.table }).setMct
    { s.mct with hold := { s.mct.hold with sense := senseNow s.msq.table } }

theorem senseTest_start {s : State} (off : s.msq.sense = false ∧ s.mct.hold.sense = false) (mode : modeOf s.mct ≠ .climb)
    (idle : s.ssq.phase = .idle) (block : s.fct.blocked = true ↔ blockedNow s) : senseTest s = senseSet s := by
  have tests : senseTest s = if senseNow s.msq.table = s.msq.sense then s else
      if senseNow s.msq.table then addHold .sense (s.setMsq { s.msq with sense := senseNow s.msq.table })
      else removeHold .sense (s.setMsq { s.msq with sense := senseNow s.msq.table }) := by rw [← senseHolds_eq]; rfl
  rw [tests, off.1, senseSet]
  cases senseNow s.msq.table with
  | false =>
    have msq : { s.msq with sense := false } = s.msq := by rw [← off.1]
    have hold : { s.mct.hold with sense := false } = s.mct.hold := by rw [← off.2]
    rw [if_pos rfl, msq, hold]
    rfl
  | true =>
    rw [if_neg (by decide), if_pos rfl]
    have kept : modeOf { s.mct with hold := { s.mct.hold with sense := true } } = modeOf s.mct := modeOf_sense mode
    refine afterCauses_still (s := (s.setMsq { s.msq with sense := true }).setMct
      { s.mct with hold := { s.mct.hold with sense := true } }) kept idle (block.trans ?_)
    unfold blockedNow
    simp only [State.setMct_mct, kept]
    exact Iff.rfl

/-- The pour block does not look at the hold cause SENSE or its condition (R99). -/
theorem blockedNow_senseSet {s : State} (mode : modeOf s.mct ≠ .climb) (off : s.mct.hold.sense = false) :
    blockedNow (senseSet s) ↔ blockedNow s := by
  have kept : modeOf { s.mct with hold := { s.mct.hold with sense := senseNow s.msq.table } } = modeOf s.mct := by
    cases senseNow s.msq.table with
    | true => exact modeOf_sense mode
    | false =>
      have hold : { s.mct.hold with sense := false } = s.mct.hold := by rw [← off]
      rw [hold]
  unfold blockedNow senseSet
  simp only [State.setMct_mct, kept]
  exact Iff.rfl

theorem FeedStarted.senseSet {p s : State} (h : FeedStarted p s) (mode : modeOf s.mct ≠ .climb)
    (off : s.mct.hold.sense = false) : FeedStarted p (Machine.senseSet s) := by
  have block := blockedNow_senseSet mode off
  have same : wants (Machine.senseSet s) ↔ wants s := and_congr Iff.rfl (and_congr Iff.rfl (and_congr (not_congr block) Iff.rfl))
  exact ⟨h.frame, h.held, h.blocked.trans block.symm, fun w => h.rests (fun v => w (same.2 v)), fun w => h.claims (same.1 w)⟩

/-! ### The identity clash of a start (R40, R100, R173, R200) -/

/-- What the identity clash leaves at the end of step 3, beside the feed. -/
structure ClashTaken (q t : State) : Prop where
  line : t.lif = { q.lif with
    silent := true, levelSlot := t.lif.levelSlot, claimSlot := t.lif.claimSlot, nextStamp := t.lif.nextStamp }
  mct : t.mct = { q.mct with safe := { q.mct.safe with identityClash := true } }
  clash : t.pvw = { q.pvw with identityClash := true }
  column : t.lco = q.lco
  stroke : t.ssq = q.ssq
  converter : t.msq = q.msq
  orders : t.ors = q.ors

theorem identityClash_later {p q : State} (h : FeedStarted p q) (safe : q.mct.safe ≠ noSafe) :
    FeedStarted p (identityClash q) ∧ ClashTaken q (identityClash q) := by
  have joins : identityClash q = ((q.setPvw { q.pvw with identityClash := true }).setMct
      { q.mct with safe := { q.mct.safe with identityClash := true } }).setLif { q.lif with silent := true } :=
    congrArg (fun s : State => s.setLif { s.lif with silent := true })
      ((addSafe_spec .identityClash (q.setPvw { q.pvw with identityClash := true })).1 safe)
  have put : safePut q.mct.safe .identityClash true ≠ noSafe := safePut_ne _ _
  have before : blockedNow q := .inl ((modeOf_safe_iff _).2 safe)
  rw [joins]
  exact ⟨⟨h.frame, h.held, iff_of_true (h.blocked.2 before) (.inl ((modeOf_safe_iff _).2 put)),
    fun _ => h.rests (fun w => w.2.2.1 before), fun w => absurd (.inl ((modeOf_safe_iff _).2 put)) w.2.2.1⟩,
    ⟨rfl, rfl, rfl, rfl, rfl, rfl, rfl⟩⟩

/-- The feed and its posts once a start's pour is blocked. -/
structure FeedBlocked (p q a : State) : Prop where
  frame : { a.fct with pour := .dry, blocked := true, claimNumber := 0, ownClaim := none } = p.fct
  held : blockedNow p → a.fct = p.fct
  blocked : a.fct.blocked = true
  rests : a.fct.pour = .dry ∧ a.fct.ownClaim = none ∧ a.lif.claimSlot = none
  line : a.lif = { q.lif with levelSlot := a.lif.levelSlot, claimSlot := a.lif.claimSlot, nextStamp := a.lif.nextStamp }
  column : a.lco = q.lco

/-- The pour block takes back the claim that a start has just made (R100). -/
theorem blockTested_started {p q u a : State} (h : FeedStarted p q) (blocks : blockedNow u) (tested : blockTested u a)
    (feed : u.fct = q.fct) (column : u.lco = q.lco) (tx : q.lif.transmitter = none)
    (line : ∃ levels n, u.lif = { q.lif with levelSlot := levels, nextStamp := n }) : FeedBlocked p q a := by
  obtain ⟨levels, n, line⟩ := line
  have slot : u.lif.claimSlot = q.lif.claimSlot := by rw [line]
  have line' : u.lif = { q.lif with levelSlot := u.lif.levelSlot, claimSlot := u.lif.claimSlot, nextStamp := u.lif.nextStamp } := by
    rw [line]
  by_cases was : q.fct.blocked = true
  · obtain ⟨dry, none, claim⟩ := h.rests (fun w => w.2.2.1 (h.blocked.1 was))
    rw [tested.1 blocks (by rw [feed]; exact was)]
    exact ⟨by rw [feed]; exact h.frame, fun b => by rw [feed]; exact h.held b, by rw [feed]; exact was,
      by rw [feed, slot]; exact ⟨dry, none, claim⟩, line', column⟩
  · have free : ¬ blockedNow p := fun b => was (by rw [h.held b]; exact (congrArg Fct.blocked h.frame).symm)
    obtain ⟨still, -, claimed, -⟩ := tested.2.2.1 blocks (by rw [feed]; exact Bool.not_eq_true _ ▸ was)
    by_cases w : wants q
    · have claiming := (h.claims w).1
      have gone : u.lif.transmitter = none := by rw [line]; exact tx
      have waiting : u.fct.ownClaim.map OwnClaim.sent = some false := by rw [feed, (h.claims w).2.2.1]; rfl
      have withdrawn : claimWithdrawn u.lif = { u.lif with claimSlot := none } := by
        simp only [claimWithdrawn, gone, Option.map_none]
      rw [claimed (by rw [feed]; exact claiming), if_pos waiting, withdrawn, line]
      exact ⟨by rw [feed]; exact h.frame, fun b => absurd b free, rfl, ⟨rfl, rfl, rfl⟩, rfl, column⟩
    · obtain ⟨dry, none, claim⟩ := h.rests w
      rw [still (.inl (by rw [feed]; exact dry))]
      exact ⟨by rw [feed]; exact h.frame, fun b => absurd b free, rfl, by rw [feed]; exact ⟨dry, none, slot.trans claim⟩, line', column⟩

theorem identityClash_first {p q : State} (h : FeedStarted p q) (calm : q.mct.safe = noSafe) (idle : q.ssq.phase = .idle)
    (tx : q.lif.transmitter = none) (amend : q.ors.amend = false) :
    FeedStarted p (identityClash q) ∧ ClashTaken q (identityClash q) := by
  generalize hx : (q.setPvw { q.pvw with identityClash := true }).setMct
    { q.mct with safe := { q.mct.safe with identityClash := true } } = x
  have idle' : x.ssq.phase = .idle := by rw [← hx]; exact idle
  have first : addSafe .identityClash (q.setPvw { q.pvw with identityClash := true }) = afterCauses q.mct x := by
    have new : ¬ safeHas q.mct.safe .identityClash = true := by rw [calm]; nofun
    rw [addSafe]
    refine (if_neg new).trans ((if_pos calm).trans ?_)
    show afterCauses q.mct (cutStroke ((q.setPvw { q.pvw with identityClash := true }).setMct
      { q.mct with safe := { q.mct.safe with identityClash := true } })) = _
    rw [hx, cutStroke_calm (by rw [idle']; nofun) (by rw [idle']; nofun)]
  have mct : (afterCauses q.mct x).mct = x.mct := by
    rw [afterCauses_mct]
    simp [settlesNow, idle']
  have safe : modeOf x.mct = .safe := (modeOf_safe_iff _).2 (by
    rw [← hx]
    exact fun e => nomatch congrArg SafeSet.identityClash e)
  obtain ⟨-, -, ssq, msq, -⟩ := afterCauses_frame q.mct x
  have clash := (afterCauses_frame q.mct x).1
  have orders := afterCauses_ors q.mct x (by rw [← hx]; exact amend)
  obtain ⟨u, b, tested, -, hu⟩ := afterCauses_spec q.mct x
  have feed := blockTested_started h (u := u) (.inl (by rw [hu]; exact safe)) tested (by rw [hu, ← hx]; rfl) (by rw [hu, ← hx]; rfl) tx
    (by
      have made : u.lif = if modeOf x.mct = modeOf q.mct then q.lif else wantLevelPost (ownStation x) q.lif := by
        rw [hu, ← hx]; rfl
      rw [made, wantLevelPost]
      (repeat' split) <;> exact ⟨_, _, rfl⟩)
  have state : identityClash q = (afterCauses q.mct x).setLif { (afterCauses q.mct x).lif with silent := true } :=
    congrArg (fun s : State => s.setLif { s.lif with silent := true }) first
  rw [state]
  generalize afterCauses q.mct x = a at *
  have blocks : blockedNow (a.setLif { a.lif with silent := true }) := .inl (by
    rw [← mct] at safe; exact safe)
  refine ⟨⟨feed.frame, feed.held, iff_of_true feed.blocked blocks, fun _ => feed.rests, fun w => absurd blocks w.2.2.1⟩,
    ⟨congrArg (fun l : Lif => { l with silent := true }) feed.line, ?_, ?_, feed.column, ?_, ?_, ?_⟩⟩
  · exact mct.trans (by rw [← hx]; rfl)
  · exact clash.trans (by rw [← hx]; rfl)
  · exact ssq.trans (by rw [← hx]; rfl)
  · exact msq.trans (by rw [← hx]; rfl)
  · exact orders.trans (by rw [← hx]; rfl)

end Sys2Proof.Machine
end

section
/-! What a start restores of the column and of own height (R9, R11, R20, R24, R89, R91, R200). -/

namespace Sys2Proof.Machine

/-! ### The column restored (R9, R20, R24) -/

/-- The column as LCO takes it from the retention area, the outage credited (R20, R24). -/
def restoredColumn (c : Settings) (minutes : Nat) (a : Retained) : Lco :=
  { column :=
      if minutes = 0 then a.column
      else
        a.column.map fun r =>
          { r with
            maturity := min 9999999 (r.maturity + minutes * (max 0 (c.fallback - c.datum)).toNat)
            flags := { r.flags with outageCredited := true } }
    known := true
    runClock := a.runClock
    tickMs := 0
    nextId := (a.column.getLast?.map fun r => (r.id + 1) % 65536).getD 0
    releaseTotal := 0
    depthRef := none
    pourSeconds := 0 }

theorem restoreColumn_released (c : Settings) (minutes : Nat) (a : Retained) : released a.height (restoredColumn c minutes a)
    (restoreColumn a.height c.datum c.fallback minutes a.column a.runClock) := by
  have counter : restoredNextId a.column = (a.column.getLast?.map fun r => (r.id + 1) % 65536).getD 0 := by
    unfold restoredNextId
    cases a.column.getLast? <;> rfl
  have column : (if 0 < minutes then a.column.map (creditLayer minutes c.datum c.fallback) else a.column) =
      (restoredColumn c minutes a).column := by
    by_cases none : minutes = 0
    · rw [if_neg (by omega)]; exact (if_pos none).symm
    · rw [if_pos (by omega)]; exact (if_neg none).symm
  rw [restoreColumn, column, counter]
  exact releasePass_spec a.height (restoredColumn c minutes a)

/-- A release pass keeps the column's marks and clock, and counts each record that goes (R9). -/
theorem released_kept {h : Int} {l t : Lco} (k : released h l t) : t.known = l.known ∧ t.runClock = l.runClock ∧
    t.releaseTotal + t.column.length ≤ l.releaseTotal + l.column.length := by
  obtain ⟨gone, kept, parts, -, -, rfl⟩ := k
  refine ⟨rfl, rfl, ?_⟩
  show min 65535 (l.releaseTotal + gone.length) + (kept.map _).length ≤ _
  rw [parts, List.length_map, List.length_append]
  omega

theorem shifted_kept {d h : Int} {l t : Lco} (k : shifted d h l t) : t.known = l.known ∧ t.runClock = l.runClock ∧
    t.releaseTotal + t.column.length ≤ l.releaseTotal + l.column.length := by
  obtain ⟨known, clock, total⟩ := released_kept k
  exact ⟨known, clock, total.trans (by rw [List.length_map])⟩

/-- A record above own height stays through a release pass, but for its state (R9). -/
theorem released_above {h : Int} {l t : Lco} (k : released h l t) {r : Layer} (hr : r ∈ l.column) (above : h < r.top) :
    ∃ r' ∈ t.column, r'.id = r.id ∧ r'.bottom = r.bottom ∧ r'.top = r.top ∧ r'.maturity = r.maturity ∧ r'.flags = r.flags := by
  obtain ⟨gone, kept, parts, low, -, rfl⟩ := k
  rw [parts] at hr
  have stays : r ∈ kept := (List.mem_append.1 hr).resolve_left fun hg => absurd (low r hg).2 (Int.not_le.2 above)
  refine ⟨_, List.mem_map.2 ⟨r, stays, rfl⟩, ?_⟩
  split <;> exact ⟨rfl, rfl, rfl, rfl, rfl⟩

/-- So it stays through a start without a stroke credit, with the outage credited (R24). -/
theorem restoredColumn_above {c : Settings} {minutes : Nat} {a : Retained} {l : Lco}
    (k : released a.height (restoredColumn c minutes a) l) {r : Layer} (hr : r ∈ a.column) (above : a.height < r.top) :
    ∃ r' ∈ l.column, r'.id = r.id ∧ r'.bottom = r.bottom ∧ r'.top = r.top ∧
      (minutes = 0 → r'.maturity = r.maturity ∧ r'.flags = r.flags) ∧
      (0 < minutes → r'.maturity = min 9999999 (r.maturity + minutes * (max 0 (c.fallback - c.datum)).toNat) ∧
        r'.flags.outageCredited = true) := by
  by_cases none : minutes = 0
  · have plain : r ∈ (restoredColumn c minutes a).column := by
      rw [show (restoredColumn c minutes a).column = a.column from if_pos none]; exact hr
    obtain ⟨r', hr', id, bottom, top, maturity, flags⟩ := released_above k plain above
    exact ⟨r', hr', id, bottom, top, fun _ => ⟨maturity, flags⟩, fun some => by omega⟩
  · have credited : { r with
        maturity := min 9999999 (r.maturity + minutes * (max 0 (c.fallback - c.datum)).toNat)
        flags := { r.flags with outageCredited := true } } ∈ (restoredColumn c minutes a).column := by
      rw [show (restoredColumn c minutes a).column = a.column.map _ from if_neg none]
      exact List.mem_map.2 ⟨r, hr, rfl⟩
    obtain ⟨r', hr', id, bottom, top, maturity, flags⟩ := released_above k credited above
    exact ⟨r', hr', id, bottom, top, fun zero => absurd zero none, fun _ => ⟨maturity, by rw [flags]⟩⟩

/-! ### Own height restored, and the stroke credit (R89, R91) -/

/-- SSQ and LCO as a start leaves them from the retained state `a`, LCO having restored `l` (R89, R91). -/
structure StrokeRestored (takeUp : Int) (a : Retained) (l : Lco) (q : Ssq) (k : Lco) : Prop where
  same : q.height = a.height → k = l
  moved : q.height ≠ a.height → shifted (q.height - a.height) q.height l k
  rest : q = { restoredSsq a with
    height := q.height, heightLimit := decide (q.height = 1000000), strokeCount := q.strokeCount, history := q.history }
  still : a.whileStroking = false → q.height = a.height ∧ q.strokeCount = a.strokeCount ∧ q.history = a.history
  credited : a.whileStroking = true →
    q.height = max 0 (min 1000000 (a.height + max 0 (a.extension - takeUp))) ∧
    q.strokeCount = (a.strokeCount + 1) % 256 ∧
    q.history =
      ({ number := (a.strokeCount + 1) % 256, allowance := none, climbed := max 0 (a.extension - takeUp), liftMs := 0
         releaseMs := 0, cause := .powerCut, creep := false, substituted := false, laser := none } :: a.history).take 8

/-- A frame shift to any target, limited to the height range (R80, R81). -/
theorem frameShiftTo_limited (target : Int) (v : Bool) (s : State) : frameShiftTo target v s =
    (s.setSsq
      { s.ssq with
        height := clamp 0 maxHeight target, heightValid := v, heightLimit := limitMark target s.ssq.heightLimit }).setLco
      (if clamp 0 maxHeight target = s.ssq.height then s.lco
      else shiftColumn (clamp 0 maxHeight target - s.ssq.height) (clamp 0 maxHeight target) s.lco) := by
  simp only [frameShiftTo, sub_eq_zero]
  split <;> rfl

theorem creditStroke_restored {b : State} {a : Retained} (ssq : b.ssq = restoredSsq a) :
    StrokeRestored b.srs.active.takeUp a b.lco (creditStroke (some a) b).ssq (creditStroke (some a) b).lco := by
  have height : b.ssq.height = a.height := by rw [ssq]; rfl
  cases hw : a.whileStroking with
  | false =>
    have none : creditStroke (some a) b = b := by
      show (if a.whileStroking = true then strokeCredit a b else b) = b
      rw [hw]; rfl
    rw [none]
    exact ⟨fun _ => rfl, fun h => absurd height h, by rw [ssq]; rfl, fun _ => by rw [ssq]; exact ⟨rfl, rfl, rfl⟩,
      fun h => nomatch hw.symm.trans h⟩
  | true =>
    have credit : creditStroke (some a) b = strokeCredit a b := by
      show (if a.whileStroking = true then strokeCredit a b else b) = _
      rw [hw]; rfl
    have limit (x : Int) : clamp 0 maxHeight x = max 0 (min 1000000 x) := rfl
    simp only [credit, strokeCredit, frameShiftTo_limited, limit, State.setSsq_ssq, State.setSsq_lco, State.setLco_ssq,
      State.setLco_lco]
    rw [ssq]
    show StrokeRestored _ a b.lco
      { restoredSsq a with
        height := max 0 (min 1000000 (a.height + max 0 (a.extension - b.srs.active.takeUp)))
        heightLimit := decide (max 0 (min 1000000 (a.height + max 0 (a.extension - b.srs.active.takeUp))) = 1000000)
        strokeCount := (a.strokeCount + 1) % 256
        history := joinHistory (powerCutRecord ((a.strokeCount + 1) % 256) (max 0 (a.extension - b.srs.active.takeUp))) a.history }
      (if max 0 (min 1000000 (a.height + max 0 (a.extension - b.srs.active.takeUp))) = a.height then b.lco
      else shiftColumn (max 0 (min 1000000 (a.height + max 0 (a.extension - b.srs.active.takeUp))) - a.height)
        (max 0 (min 1000000 (a.height + max 0 (a.extension - b.srs.active.takeUp)))) b.lco)
    generalize hh : max 0 (min 1000000 (a.height + max 0 (a.extension - b.srs.active.takeUp))) = h
    exact ⟨fun e => if_pos e, fun e => by rw [if_neg e]; exact shiftColumn_spec _ _ _, rfl,
      fun e => (nomatch hw.symm.trans e), fun _ => ⟨hh.symm, rfl, rfl⟩⟩

end Sys2Proof.Machine
end

section
/-! Steps 1 to 3 of a start put together (R200). -/

namespace Sys2Proof.Machine

/-! ### The end of step 3 (R99 to R102, R129, R173, R200) -/

/-- What the end of step 3 leaves of the state `p` that has its posts queued. -/
structure Started (p : State) (identity : Bool) (t : State) : Prop where
  feed : FeedStarted p t
  line : t.lif = { p.lif with
    silent := identity, levelSlot := t.lif.levelSlot, claimSlot := t.lif.claimSlot, nextStamp := t.lif.nextStamp }
  level : identity = false → t.lif.levelSlot = p.lif.levelSlot
  mct : t.mct = { p.mct with
    hold := { p.mct.hold with sense := senseNow p.msq.table }, safe := { p.mct.safe with identityClash := identity } }
  clash : t.pvw = { p.pvw with identityClash := identity }
  converter : t.msq = { p.msq with sense := senseNow p.msq.table }
  column : t.lco = p.lco
  stroke : t.ssq = p.ssq
  orders : t.ors = p.ors
  others : t.cpl = p.cpl ∧ t.srs = p.srs ∧ t.ldr = p.ldr ∧ t.pins = p.pins

/-- The parts of a start's state that the end of step 3 builds on. -/
structure StartReady (p : State) : Prop where
  feed : FeedBuilt p
  mode : modeOf p.mct ≠ .climb
  idle : p.ssq.phase = .idle
  transmitter : p.lif.transmitter = none
  amend : p.ors.amend = false
  sense : p.msq.sense = false ∧ p.mct.hold.sense = false
  clash : p.lif.silent = false ∧ p.mct.safe.identityClash = false ∧ p.pvw.identityClash = false

theorem endOfStep3_started {p : State} (h : StartReady p) (identity : Bool) : Started p identity (endOfStep3 identity p) := by
  obtain ⟨feed, whole, line⟩ := reportBlock_started h.feed
  obtain ⟨f, claim, stamp, hr⟩ : ∃ f claim stamp, reportBlock p =
      (p.setLif { p.lif with claimSlot := claim, nextStamp := stamp }).setFct f :=
    ⟨_, _, _, whole.trans (congrArg (fun l : Lif => (p.setLif l).setFct (reportBlock p).fct) line)⟩
  rw [hr] at feed
  clear whole line
  generalize hw : (p.setLif { p.lif with claimSlot := claim, nextStamp := stamp }).setFct f = r at feed hr
  have sensed : senseTest r = senseSet r := senseTest_start (by rw [← hw]; exact h.sense) (by rw [← hw]; exact h.mode)
    (by rw [← hw]; exact h.idle) feed.blocked
  have started : FeedStarted p (senseSet r) := feed.senseSet (by rw [← hw]; exact h.mode) (by rw [← hw]; exact h.sense.2)
  have steps : endOfStep3 identity p = if identity = true then identityClash (senseSet r) else senseSet r := by
    rw [← sensed, ← hr]; rfl
  obtain ⟨silent, safe, clash⟩ := h.clash
  cases identity with
  | false =>
    have quiet : { p.mct.safe with identityClash := false } = p.mct.safe := by rw [← safe]
    have clear : { p.pvw with identityClash := false } = p.pvw := by rw [← clash]
    have heard : { p.lif with silent := false } = p.lif := by rw [← silent]
    rw [steps, if_neg (by decide)]
    refine ⟨started, ?_, ?_, ?_, ?_, ?_, ?_, ?_, ?_, ?_⟩
    · rw [← hw]
      exact congrArg (fun l : Lif => { l with claimSlot := claim, nextStamp := stamp }) heard.symm
    · rw [← hw]; exact fun _ => rfl
    · rw [← hw, quiet]; rfl
    · rw [← hw, clear]; rfl
    · rw [← hw]; rfl
    · rw [← hw]; rfl
    · rw [← hw]; rfl
    · rw [← hw]; rfl
    · rw [← hw]; exact ⟨rfl, rfl, rfl, rfl⟩
  | true =>
    have taken : FeedStarted p (identityClash (senseSet r)) ∧ ClashTaken (senseSet r) (identityClash (senseSet r)) := by
      by_cases calm : (senseSet r).mct.safe = noSafe
      · exact identityClash_first started calm (by rw [← hw]; exact h.idle) (by rw [← hw]; exact h.transmitter)
          (by rw [← hw]; exact h.amend)
      · exact identityClash_later started calm
    obtain ⟨blocked, k⟩ := taken
    rw [steps, if_pos rfl]
    refine ⟨blocked, ?_, nofun, ?_, ?_, ?_, ?_, ?_, ?_, ?_⟩
    · refine k.line.trans ?_
      rw [← hw]; rfl
    · rw [k.mct, ← hw]; rfl
    · rw [k.clash, ← hw]; rfl
    · rw [k.converter, ← hw]; rfl
    · rw [k.column, ← hw]; rfl
    · rw [k.stroke, ← hw]; rfl
    · rw [k.orders, ← hw]; rfl
    · have frame := addSafe_frame .identityClash ((senseSet r).setPvw { (senseSet r).pvw with identityClash := true })
      obtain ⟨-, cpl, srs, ldr, pins, -⟩ := frame
      refine ⟨cpl.trans ?_, srs.trans ?_, ldr.trans ?_, pins.trans ?_⟩ <;> rw [← hw] <;> rfl

end Sys2Proof.Machine
end

section
/-! What a start builds (R20, R24, R45, R46, R89, R91, R101, R102, R114, R131, R143, R154, R174, R176, R194, R196, R200, R204). -/

namespace Sys2Proof.Machine

/-! ### The blocks as step 3 builds them -/

/-- What LIF has been given by the events of steps 1 to 3 is the receiver's alone (R174, R200). -/
theorem heard_line (own bitUs : Nat) (heard : List StartEvent) :
    let l := heard.foldl (heardLif own bitUs) (lifAtStart own)
    (l.haltSlot = none ∧ l.claimSlot = none ∧ l.gateSlot = none ∧ l.levelSlot = none ∧ l.replySlot = none) ∧
    l.transmitter = none ∧ l.access = false ∧ l.bucket = 0 ∧ l.muted = false ∧ l.silent = false ∧ l.levelMs = none ∧ l.garbles = 0 := by
  have side := heard_side own bitUs heard (lifAtStart own)
  intro l
  simp only [sendingSide, lifAtStart, Lif.mk.injEq] at side
  exact ⟨by simp [l, side, lifAtStart], by simp [l, side, lifAtStart], by simp [l, side, lifAtStart], by simp [l, side, lifAtStart],
    by simp [l, side, lifAtStart], by simp [l, side, lifAtStart], by simp [l, side, lifAtStart], by simp [l, side, lifAtStart]⟩

/-- MSQ tests no sense condition in steps 1 to 3 (R200). -/
theorem heard_sense (heard : List StartEvent) (m : Msq) : (heard.foldl heardMsq m).sense = m.sense := by
  induction heard generalizing m with
  | nil => rfl
  | cons e rest ih =>
    refine (ih _).trans ?_
    cases e with
    | conversion raw =>
      show (convertMsq raw.toNat m).sense = m.sense
      cases h : m.chain with
      | none => rw [convertMsq_scan _ h]
      | some ch => rw [convertMsq_chain _ h]
    | beamPresent on =>
      show (if on = decide (m.table.beam.state ≠ .absent) then m else beamChangedMsq on m).sense = m.sense
      split <;> rfl
    | _ => rfl

/-- No start is in CLIMB: RUNNING is restored with RESTORED in the SAFE set or with OPERATOR (R154). -/
theorem modeOf_start (good : Bool) (a : Option Retained) (x : StartInputs) (h : Option HaltPost) :
    modeOf { withInputs x (startMct good a) with queuedHalt := h } ≠ .climb := by
  cases a with
  | none => exact (modeOf_setup (m := { withInputs x mctCold with queuedHalt := h }) rfl rfl).trans_ne nofun
  | some a =>
    cases hs : a.wasSafe with
    | true =>
      refine ((modeOf_safe_iff { withInputs x (restoredMct good a) with queuedHalt := h }).2 ?_).trans_ne nofun
      show { noSafe with restored := a.wasSafe } ≠ noSafe
      rw [hs]
      nofun
    | false =>
      have safe : { noSafe with restored := a.wasSafe } = noSafe := by rw [hs]; rfl
      rcases (show startBase good a = .setup ∨ startBase good a = .running by cases startBase good a <;> simp) with base | base
      · exact (modeOf_setup (m := { withInputs x (restoredMct good a) with queuedHalt := h }) safe base).trans_ne nofun
      · have operator : (restoredMct good a).hold.operator = true := by
          show (decide (startBase good a = .running) && !a.wasSafe) = true
          rw [base, hs]; rfl
        have held : (withInputs x (restoredMct good a)).hold ≠ noHold := fun e => by
          have off : (restoredMct good a).hold.operator = false := (congrArg HoldSet.operator e : _)
          exact nomatch operator.symm.trans off
        exact ((modeOf_running (m := { withInputs x (restoredMct good a) with queuedHalt := h }) safe base).trans
          (if_neg held)).trans_ne nofun

/-- The state whose posts are queued. -/
def startQueued (x : StartInputs) (heard : List StartEvent) (s : State) : State :=
  startPosts (creditStroke (retainedState s.srs) (builtState x heard s))

section Built

variable (x : StartInputs) (heard : List StartEvent) (s : State)

theorem creditStroke_idle (a : Option Retained) (b : State) (idle : b.ssq.phase = .idle) :
    (creditStroke a b).ssq.phase = .idle := by
  cases a with
  | none => exact idle
  | some a =>
    show (if a.whileStroking = true then strokeCredit a b else b).ssq.phase = .idle
    split
    · simp only [strokeCredit, frameShiftTo_limited, State.setSsq_ssq, State.setLco_ssq]
      exact idle
    · exact idle

theorem startQueued_posts : PostsQueued (creditStroke (retainedState s.srs) (builtState x heard s)) (startQueued x heard s) := by
  refine startPosts_queued ?_
  obtain ⟨-, -, -, -, -, mct, -⟩ := creditStroke_frame (retainedState s.srs) (builtState x heard s)
  rw [mct]
  show (startMct _ (retainedState s.srs)).safe.identityClash = false
  cases retainedState s.srs <;> rfl

theorem startQueued_ready : StartReady (startQueued x heard s) := by
  have posts := startQueued_posts x heard s
  have line := heard_line (stationOf (loadedSettings s.srs)) (bitTimeUs (loadedSettings s.srs)) heard
  obtain ⟨lif, pvw, cpl, msq, fct, mct, ors, srs, -⟩ := creditStroke_frame (retainedState s.srs) (builtState x heard s)
  have idle := creditStroke_idle (retainedState s.srs) (builtState x heard s)
    (by show (startSsq (retainedState s.srs)).phase = .idle; cases retainedState s.srs <;> rfl)
  generalize creditStroke (retainedState s.srs) (builtState x heard s) = b at *
  generalize startQueued x heard s = p at *
  have parts : p.pvw = b.pvw ∧ p.cpl = b.cpl ∧ p.msq = b.msq ∧ p.fct = b.fct ∧ p.ors = b.ors ∧ p.srs = b.srs ∧ p.ssq = b.ssq := by
    rw [posts.whole]; exact ⟨rfl, rfl, rfl, rfl, rfl, rfl, rfl⟩
  obtain ⟨pvw', cpl', msq', fct', ors', srs', ssq'⟩ := parts
  obtain ⟨⟨-, claim, -⟩, tx, -, -, -, silent, -⟩ := line
  have kept : p.lif.claimSlot = b.lif.claimSlot ∧ p.lif.transmitter = b.lif.transmitter ∧ p.lif.silent = b.lif.silent := by
    rw [posts.line]; exact ⟨rfl, rfl, rfl⟩
  obtain ⟨claim', tx', silent'⟩ := kept
  refine ⟨⟨?_, ?_, ?_, ?_⟩, ?_, ?_, ?_, ?_, ⟨?_, ?_⟩, ?_, ?_, ?_⟩
  · rw [fct', fct]; rfl
  · rw [claim', lif]; exact claim
  · rw [pvw', pvw, srs', srs]
    exact ⟨rfl, loadedSettings_place s.srs⟩
  · rw [cpl', cpl]; rfl
  · rw [posts.mct, mct]
    exact modeOf_start _ _ _ _
  · rw [ssq']; exact idle
  · rw [tx', lif]; exact tx
  · rw [ors', ors]; rfl
  · rw [msq', msq]
    exact heard_sense heard _
  · rw [posts.mct, mct]
    show (startMct _ (retainedState s.srs)).hold.sense = false
    cases retainedState s.srs <;> rfl
  · rw [silent', lif]; exact silent
  · rw [posts.mct, mct]
    show (startMct _ (retainedState s.srs)).safe.identityClash = false
    cases retainedState s.srs <;> rfl
  · rw [pvw', pvw]; rfl

end Built

end Sys2Proof.Machine
end

section
/-! A start's statement assembled (R20, R24, R45, R46, R89, R91, R101, R102, R114, R131, R143, R154, R174, R176, R194, R196, R200,
R204). -/

namespace Sys2Proof.Machine

/-! ### The node that a start leaves, block by block -/

/-- An identity report heard in steps 1 to 3 (R40, R200). -/
def identityHeard (heard : List StartEvent) (s : State) : Bool :=
  heardIdentity (stationOf (loadedSettings s.srs)) (bitTimeUs (loadedSettings s.srs))
    (lifAtStart (stationOf (loadedSettings s.srs))) heard

/-- LIF's receiver after steps 1 to 3. -/
def heardLine (heard : List StartEvent) (s : State) : Lif :=
  heard.foldl (heardLif (stationOf (loadedSettings s.srs)) (bitTimeUs (loadedSettings s.srs)))
    (lifAtStart (stationOf (loadedSettings s.srs)))

/-- MSQ after steps 1 to 3. -/
def heardConverter (x : StartInputs) (heard : List StartEvent) : Msq := heard.foldl heardMsq (msqAtStart x.beamPresent)

/-- The HALT post of a start: that of an active E-stop, with a station set (R143, R154). -/
def startHalt (x : StartInputs) (s : State) : Option HaltPost :=
  if x.estopActive = true ∧ stationOf (loadedSettings s.srs) ≠ 0 then some { kind := .all, reason := .estop } else none

/-- MCT with the inputs read, before the posts and the reports (R154). -/
def startCauses (x : StartInputs) (s : State) : Mct := withInputs x (startMct (loadPasses s.srs) (retainedState s.srs))

structure NodeStarted (x : StartInputs) (heard : List StartEvent) (s t : State) : Prop where
  srs : t.srs = loadedSrs s.srs
  cpl : t.cpl = startCpl (retainedState s.srs)
  ors : t.ors = orsAtStart
  ldr : t.ldr = ldrAtStart
  pins : t.pins.gateClosedLimit = x.gateClosedLimit
  msq : t.msq = { heardConverter x heard with sense := senseNow (heardConverter x heard).table }
  mct : t.mct = { startCauses x s with
    queuedHalt := startHalt x s
    hold := { (startCauses x s).hold with sense := senseNow (heardConverter x heard).table }
    safe := { (startCauses x s).safe with identityClash := identityHeard heard s } }
  pvw : t.pvw = { pvwAtStart with identityClash := identityHeard heard s }
  line : ∃ halt claim gate level stamp, t.lif = { heardLine heard s with
      silent := identityHeard heard s, haltSlot := halt, claimSlot := claim, gateSlot := gate, levelSlot := level
      nextStamp := stamp } ∧
    (identityHeard heard s = false → level = none) ∧
    gate.map Slot.post = (if stationOf (loadedSettings s.srs) = 0 then none
      else some { state := (fctAtStart x.gateClosedLimit).gate, needAtOpen := 0, yielded := false }) ∧
    halt.map Slot.post = startHalt x s
  fct : { t.fct with pour := .dry, blocked := true, claimNumber := 0, ownClaim := none } = fctAtStart x.gateClosedLimit
  held : (heardConverter x heard).table.fill.state ≠ .good → t.fct = fctAtStart x.gateClosedLimit
  blocked : t.fct.blocked = true ↔ blockedNow t
  rests : ¬ wants t → t.fct.pour = .dry ∧ t.fct.ownClaim = none ∧ t.lif.claimSlot = none
  claims : wants t → t.fct.pour = .claiming ∧ t.fct.claimNumber = 1 ∧
    t.fct.ownClaim = some { need := fillGap t, number := 1, sent := false } ∧
    t.lif.claimSlot.map Slot.post = some { need := fillGap t, number := 1 }
  restored : t.ssq = (creditStroke (retainedState s.srs) (builtState x heard s)).ssq ∧
    t.lco = (creditStroke (retainedState s.srs) (builtState x heard s)).lco

theorem startNode_started (x : StartInputs) (heard : List StartEvent) (s : State) : NodeStarted x heard s (startNode x heard s) := by
  have k : Started (startQueued x heard s) (identityHeard heard s) (startNode x heard s) :=
    endOfStep3_started (startQueued_ready x heard s) (identityHeard heard s)
  have posts := startQueued_posts x heard s
  obtain ⟨lif, pvw, cpl, msq, fct, mct, ors, srs, ldr, pins, -⟩ := creditStroke_frame (retainedState s.srs) (builtState x heard s)
  generalize hb : creditStroke (retainedState s.srs) (builtState x heard s) = b at *
  generalize startQueued x heard s = p at *
  generalize startNode x heard s = t at *
  have parts : p.pvw = b.pvw ∧ p.cpl = b.cpl ∧ p.msq = b.msq ∧ p.fct = b.fct ∧ p.ors = b.ors ∧ p.srs = b.srs ∧ p.ssq = b.ssq ∧
      p.lco = b.lco ∧ p.ldr = b.ldr ∧ p.pins = b.pins := by
    rw [posts.whole]; exact ⟨rfl, rfl, rfl, rfl, rfl, rfl, rfl, rfl, rfl, rfl⟩
  obtain ⟨pvw', cpl', msq', fct', ors', srs', ssq', lco', ldr', pins'⟩ := parts
  obtain ⟨tcpl, tsrs, tldr, tpins⟩ := k.others
  have station : ownStation b = stationOf (loadedSettings s.srs) := by
    show stationOf b.srs.active = _
    rw [srs]; rfl
  have gate := posts.gate
  have halt := posts.halt
  have causes := posts.mct
  obtain ⟨⟨noHalt, -, noGate, noLevel, -⟩, -⟩ := heard_line (stationOf (loadedSettings s.srs)) (bitTimeUs (loadedSettings s.srs)) heard
  rw [station, lif, mct] at halt
  rw [station, lif, fct] at gate
  rw [station, mct] at causes
  have unqueued : (startCauses x s).queuedHalt = none := by
    show (startMct _ (retainedState s.srs)).queuedHalt = none
    cases retainedState s.srs <;> rfl
  have queued : p.mct = { startCauses x s with queuedHalt := startHalt x s } := by
    rw [causes]
    show { startCauses x s with
      queuedHalt :=
        if x.estopActive = true ∧ stationOf (loadedSettings s.srs) ≠ 0 then some { kind := .all, reason := .estop }
        else (startCauses x s).queuedHalt } = _
    rw [unqueued]
    rfl
  refine ⟨?_, ?_, ?_, ?_, ?_, ?_, ?_, ?_, ?_, ?_, ?_, k.feed.blocked, k.feed.rests, k.feed.claims, k.stroke.trans (ssq'.trans (by rw [hb])),
    k.column.trans (lco'.trans (by rw [hb]))⟩
  · rw [tsrs, srs', srs]; rfl
  · rw [tcpl, cpl', cpl]; rfl
  · rw [k.orders, ors', ors]; rfl
  · rw [tldr, ldr', ldr]; rfl
  · rw [tpins, pins', pins]; rfl
  · rw [k.converter, msq', msq]; rfl
  · rw [k.mct, queued, msq', msq]; rfl
  · rw [k.clash, pvw', pvw]; rfl
  · refine ⟨p.lif.haltSlot, t.lif.claimSlot, p.lif.gateSlot, t.lif.levelSlot, t.lif.nextStamp, ?_, fun clear => ?_, ?_, ?_⟩
    · refine k.line.trans ?_
      have under : p.lif = { heardLine heard s with
          gateSlot := p.lif.gateSlot, haltSlot := p.lif.haltSlot, nextStamp := p.lif.nextStamp } :=
        posts.line.trans (by rw [lif]; rfl)
      exact congrArg (fun l : Lif => { l with
        silent := identityHeard heard s, levelSlot := t.lif.levelSlot, claimSlot := t.lif.claimSlot
        nextStamp := t.lif.nextStamp }) under
    · rw [k.level clear, posts.line, lif]
      exact noLevel
    · rw [gate]
      split
      · exact congrArg (Option.map Slot.post) noGate
      · rfl
    · rw [halt]
      show (if x.estopActive = true ∧ stationOf (loadedSettings s.srs) ≠ 0 then _ else _) = startHalt x s
      rw [startHalt]
      split
      · rfl
      · exact congrArg (Option.map Slot.post) noHalt
  · rw [k.feed.frame, fct', fct]; rfl
  · intro fill
    have blocks : blockedNow p := .inr (.inr (.inr (.inr (.inl (by rw [msq', msq]; exact fill)))))
    rw [k.feed.held blocks, fct', fct]
    rfl

end Sys2Proof.Machine
end

section
/-! O49: the node that a start leaves, read off block by block. -/

namespace Sys2Proof.Machine

/-- The state that a start credits a stroke to holds SSQ and LCO as retained (R24, R89). -/
theorem startRestored_warm {x : StartInputs} {heard : List StartEvent} {s t : State} (k : NodeStarted x heard s t) {a : Retained}
    (ha : retainedState s.srs = some a) : StrokeRestored t.srs.active.takeUp a
      (restoreColumn a.height t.srs.active.datum t.srs.active.fallback (outageMinutes s.srs a) a.column a.runClock) t.ssq t.lco := by
  have restored : (builtState x heard s).ssq = restoredSsq a := by
    show startSsq (retainedState s.srs) = _
    rw [ha]; rfl
  have column : (builtState x heard s).lco = restoreColumn a.height (loadedSettings s.srs).datum (loadedSettings s.srs).fallback
      (outageMinutes s.srs a) a.column a.runClock := by
    show startLco _ s.srs (retainedState s.srs) = _
    rw [ha]; rfl
  have credit := creditStroke_restored restored
  rw [column] at credit
  rw [k.restored.1, k.restored.2, k.srs, ha]
  exact credit

/-- Where no state is retained a start builds LCO and SSQ anew (R20, R89). -/
theorem startRestored_cold {x : StartInputs} {heard : List StartEvent} {s t : State} (k : NodeStarted x heard s t)
    (none : retainedState s.srs = none) : t.ssq = ssqCold ∧ t.lco = lcoCold := by
  rw [k.restored.1, k.restored.2, none]
  show startSsq (retainedState s.srs) = _ ∧ startLco _ s.srs (retainedState s.srs) = _
  rw [none]
  exact ⟨rfl, rfl⟩

/-- No start has a stroke in flight or a valve on (R89). -/
theorem startRestored_calm {x : StartInputs} {heard : List StartEvent} {s t : State} (k : NodeStarted x heard s t) :
    t.ssq.phase = .idle ∧ t.ssq.stroke = none ∧ t.ssq.liftEnable = false ∧ t.ssq.dutyWritten = 0 ∧ t.ssq.releaseOn = false := by
  cases ha : retainedState s.srs with
  | none => rw [(startRestored_cold k ha).1]; exact ⟨rfl, rfl, rfl, rfl, rfl⟩
  | some a => rw [(startRestored_warm k ha).rest]; exact ⟨rfl, rfl, rfl, rfl, rfl⟩

/-- The causes of every start are those of its inputs, of the restored state, and of what is heard meanwhile (R154). -/
theorem startCauses_eq (x : StartInputs) (s : State) :
    (startCauses x s).estopActive = x.estopActive ∧ (startCauses x s).key = keyPosition x.key ∧
    (startCauses x s).hold.estop = x.estopActive ∧ (startCauses x s).hold.key = decide (keyPosition x.key ≠ .run) ∧
    (startCauses x s).hold.haltClimb = false ∧ (startCauses x s).hold.haltAll = false ∧ (startCauses x s).hold.mute = false ∧
    (startCauses x s).safe = { noSafe with restored := (startCauses x s).safe.restored } ∧
    (startCauses x s).lastHalt = none ∧ (startCauses x s).settling = false := by
  unfold startCauses
  cases retainedState s.srs <;> exact ⟨rfl, rfl, rfl, rfl, rfl, rfl, rfl, rfl, rfl, rfl⟩

/-- The pour of a start needs a gap, a closed gate, a station and no block (R101). -/
theorem wants_started {x : StartInputs} {heard : List StartEvent} {s t : State} (k : NodeStarted x heard s t) :
    wants t ↔ ¬ blockedNow t ∧ t.srs.active.gReq ≤ fillGap t ∧ x.gateClosedLimit = true ∧ ownStation t ≠ 0 := by
  have gate : t.fct.gate = .closed ↔ x.gateClosedLimit = true := by
    rw [show t.fct.gate = if x.gateClosedLimit then .closed else .closing from congrArg Fct.gate k.fct]
    cases x.gateClosedLimit <;> simp
  unfold wants
  rw [gate]
  tauto

/-- A start that hears nothing (R99, R131, R174). -/
theorem startUnheard {x : StartInputs} {s t : State} (k : NodeStarted x [] s t) :
    t.msq = { msqAtStart x.beamPresent with sense := senseNow (msqAtStart x.beamPresent).table } ∧
    t.lif.lastSender = stationOf (loadedSettings s.srs) ∧ t.lif.fifo = [] ∧ t.lif.claimSlot = none ∧
    t.fct = fctAtStart x.gateClosedLimit := by
  obtain ⟨halt, claim, gate, level, stamp, line, -⟩ := k.line
  have blocks : blockedNow t := .inr (.inr (.inr (.inr (.inl (by rw [k.msq]; exact nofun)))))
  refine ⟨k.msq, ?_, ?_, (k.rests fun w => w.2.2.1 blocks).2.2, k.held (by exact nofun)⟩
  · rw [line]; rfl
  · rw [line]; rfl

/-- What a start restores of the column from the retained state (R9, R24, R91). -/
theorem startColumn_warm {x : StartInputs} {heard : List StartEvent} {s t : State} (k : NodeStarted x heard s t) {a : Retained}
    (ha : retainedState s.srs = some a) : ∃ l, released a.height (restoredColumn t.srs.active (outageMinutes s.srs a) a) l ∧
      (t.ssq.height = a.height → t.lco = l) ∧
      (t.ssq.height ≠ a.height → shifted (t.ssq.height - a.height) t.ssq.height l t.lco) ∧
      t.lco.known = true ∧ t.lco.runClock = a.runClock ∧ t.lco.releaseTotal ≤ a.column.length := by
  have warm := startRestored_warm k ha
  have first := restoreColumn_released t.srs.active (outageMinutes s.srs a) a
  obtain ⟨known, clock, total⟩ := released_kept first
  have size : (restoredColumn t.srs.active (outageMinutes s.srs a) a).column.length = a.column.length := by
    show (if outageMinutes s.srs a = 0 then a.column else a.column.map _).length = _
    split
    · rfl
    · rw [List.length_map]
  rw [size] at total
  refine ⟨_, first, warm.same, warm.moved, ?_⟩
  have bound (n : Nat) (h : n + t.lco.column.length ≤ a.column.length) : n ≤ a.column.length := by omega
  have zero : (restoredColumn t.srs.active (outageMinutes s.srs a) a).releaseTotal = 0 := rfl
  by_cases same : t.ssq.height = a.height
  · rw [warm.same same]
    exact ⟨known, clock, by omega⟩
  · obtain ⟨known', clock', total'⟩ := shifted_kept (warm.moved same)
    exact ⟨known'.trans known, clock'.trans clock, by omega⟩

/-- Settles O49: the start's steps leave each block as its chapter says, and the pour block, the sense condition and the identity
clash then find nothing else to change. -/
theorem startBuilds : Obligations.StartBuilds := by
  refine ⟨loadsGood_iff, fun x heard s => ⟨fun up => congrArg Host.Outcome.next (if_pos up), fun down => ?_⟩⟩
  have k := startNode_started x heard s
  have calm := startRestored_calm k
  refine ⟨startNode x heard s, _, congrArg Host.Outcome.next (if_neg down), rfl, ?_⟩
  generalize startNode x heard s = t at *
  obtain ⟨halt, claim, gate, level, stamp, line, unleveled, gatePost, haltPost⟩ := k.line
  have station : ownStation t = stationOf (loadedSettings s.srs) := by
    show stationOf t.srs.active = _
    rw [k.srs]; rfl
  have gateNow : t.fct.gate = (fctAtStart x.gateClosedLimit).gate := (congrArg Fct.gate k.fct :)
  have silent : t.lif.silent = identityHeard heard s := by rw [line]
  obtain ⟨⟨-, -, -, -, noReply⟩, noTx, noAccess, noGarbles, unmuted, -, noTimer, noCount⟩ :=
    heard_line (stationOf (loadedSettings s.srs)) (bitTimeUs (loadedSettings s.srs)) heard
  obtain ⟨estop, key, holdEstop, holdKey, haltClimb, haltAll, mute, safe, lastHalt, settling⟩ := startCauses_eq x s
  obtain ⟨phase, stroke, lift, duty, release⟩ := calm
  refine ⟨?_, ?_, ?_, ?_, k.ors, k.ldr, congrArg Fct.gate k.fct, congrArg Fct.motor k.fct, phase, stroke, lift, duty, release, ?_, ?_,
    ?_, ?_, ?_, ?_, ?_, k.pins, ?_, ?_, ?_, ?_, ?_, ?_, ?_, ?_, ?_, ?_, ?_, ?_, ?_, ?_, ?_, ?_, ?_, ?_, ?_, ?_,
    congrArg Fct.travelMs k.fct, congrArg Fct.needAtOpen k.fct, congrArg Fct.yieldMark k.fct, congrArg Fct.pendingBackoff k.fct,
    k.blocked, ?_, ?_, ?_, ?_⟩
  · rw [k.srs]; rfl
  · rw [k.pvw]; rfl
  · rw [k.pvw]; rfl
  · rw [k.pvw]; rfl
  · rw [k.cpl]; rfl
  · rw [k.cpl]; rfl
  · rw [line]; exact noAccess
  · rw [k.mct]; exact estop
  · rw [k.mct]; exact key
  · rw [k.mct]; exact holdEstop
  · rw [k.mct]; exact holdKey
  · rw [k.mct, k.msq]
    generalize (startCauses x s).hold = h at *
    obtain ⟨_, climb, all, _, _, muted, _⟩ := h
    obtain rfl : climb = false := haltClimb
    obtain rfl : all = false := haltAll
    obtain rfl : muted = false := mute
    rfl
  · rw [k.msq]
  · rw [k.mct, silent]
    exact congrArg (fun f : SafeSet => { f with identityClash := identityHeard heard s }) safe
  · rw [k.pvw, silent]
  · rw [k.mct]; exact lastHalt
  · rw [k.mct]; exact settling
  · intro foreign
    rw [silent]
    exact heardIdentity_foreign (fun bytes p hp clean => station ▸ foreign bytes p hp clean) _
  · rintro bytes p later rfl clean same low high
    rw [silent]
    rw [station] at same low high
    exact heardIdentity_own clean same low high
  · rw [line]; exact noGarbles
  · rw [line]; exact unmuted
  · rw [line]; exact noTx
  · rw [line]; exact noReply
  · rw [line]; exact noTimer
  · rw [line]; exact noCount
  · intro quiet
    rw [line]
    exact unleveled (silent.symm.trans quiet)
  · rintro rfl
    rw [line]
    exact ⟨rfl, rfl, rfl, rfl, rfl, rfl⟩
  · rintro rfl
    obtain ⟨msq, sender, fifo, slot, fct⟩ := startUnheard k
    rw [msq, fct]
    refine ⟨rfl, rfl, rfl, rfl, rfl, fun c => ?_, sender.trans station.symm, fifo, slot, rfl⟩
    cases c with
    | beam => cases x.beamPresent <;> simp [msqAtStart, entryOf, entryNotValid, entryAbsent]
    | _ => rfl
  · rw [line, station, gateNow]
    exact gatePost
  · rw [k.mct, station]
    rfl
  · rw [line, k.mct]
    exact haltPost
  · intro stays
    refine k.rests fun w => ?_
    obtain ⟨free, gap, closed, own⟩ := (wants_started k).1 w
    rcases stays with block | few | moving | unset
    · exact free block
    · omega
    · exact nomatch closed.symm.trans moving
    · exact own unset
  · exact fun free gap closed own => k.claims ((wants_started k).2 ⟨free, gap, closed, own⟩)
  · intro absent
    have none : retainedState s.srs = none := by
      unfold retainedState
      rcases absent with invalid | empty
      · rw [invalid]; rfl
      · rw [empty, ite_self]
    obtain ⟨ssq, lco⟩ := startRestored_cold k none
    have causes : startCauses x s = withInputs x mctCold := by rw [startCauses, none]; rfl
    rw [k.mct, k.cpl, none, causes]
    exact ⟨lco, ssq, rfl, rfl, rfl, rfl, rfl, rfl⟩
  · intro a valid area
    have ha : retainedState s.srs = some a := by rw [retainedState, valid, area]; rfl
    have causes : startCauses x s = withInputs x (restoredMct (loadPasses s.srs) a) := by rw [startCauses, ha]; rfl
    have base : startBase (loadPasses s.srs) a = if t.srs.loadResult = .good then a.base else .setup := by
      rw [k.srs]
      show (if loadPasses s.srs = true then a.base else .setup) = if (if loadPasses s.srs then LoadResult.good else .default) = .good
        then a.base else .setup
      cases loadPasses s.srs <;> rfl
    have warm := startRestored_warm k ha
    obtain ⟨l, released, same, moved, known, clock, total⟩ := startColumn_warm k ha
    have kept : t.ssq.plane = a.plane ∧ t.ssq.heightValid = a.heightValid ∧
        t.ssq.heightLimit = decide (t.ssq.height = 1000000) ∧ t.ssq.laserDisagree = false ∧ t.ssq.chatter = 0 :=
      ⟨by rw [warm.rest]; rfl, by rw [warm.rest]; rfl, congrArg Ssq.heightLimit warm.rest, by rw [warm.rest]; rfl,
        by rw [warm.rest]; rfl⟩
    obtain ⟨plane, heightValid, limit, disagree, chatter⟩ := kept
    refine ⟨by rw [k.cpl, ha]; rfl, known, clock, total, ?_, ?_, ?_, ?_, ?_, plane, heightValid, limit, disagree, chatter,
      ⟨_, l, rfl, released, same, moved⟩, fun still => ?_, warm.credited⟩
    · rw [k.mct, causes, ← base]; rfl
    · rw [k.mct, causes]; rfl
    · rw [k.mct, causes]; rfl
    · rw [k.mct, causes]; rfl
    · rw [k.mct, causes]; rfl
    · obtain ⟨height, count, history⟩ := warm.still still
      refine ⟨height, count, history, fun r hr above => ?_⟩
      obtain ⟨r', hr', id, bottom, top, plain, credited⟩ := restoredColumn_above released hr above
      rw [same height]
      refine ⟨r', hr', id, bottom, top, fun none => plain ?_, fun outage some => ?_⟩
      · rcases none with marked | none
        · rw [outageMinutes, marked]; rfl
        · rw [outageMinutes, none, ite_self]
      · have minutes : outageMinutes s.srs a = s.srs.outage := by rw [outageMinutes, outage]; rfl
        rw [minutes] at credited
        exact credited some

end Sys2Proof.Machine
end
